-- ==== Sys2Proof/Word.lean ====
section
/-! DEFINITION. The numbers and words of the MTC-48: bytes and 16-bit quantities as frames carry them, and the
numbering of section 0.5 (handles, sleds, zones, stations, service phases). Power quantities are plain naturals
in throttle units: the manual computes on integers (section 0.5). -/

namespace Sys2Proof

/-- A byte of a frame or an image. -/
abbrev Byte := BitVec 8

/-- A 16-bit quantity as a command frame carries it (section 11.5). -/
abbrev Half := BitVec 16

/-- A set of memory channels 0 to 3, channel `c` in bit `c` (section 11.3). -/
abbrev ChannelMask := BitVec 4

/-- Allotment handle, 0 to 159 (section 0.5). -/
abbrev Handle := Fin 160

/-- Sled number, 0 to 47 (section 6.1). -/
abbrev SledNo := Fin 48

/-- Power zone, 0 to 7 (section 0.5). -/
abbrev ZoneNo := Fin 8

/-- Station, 0 to 5 (section 6.1). -/
abbrev StationNo := Fin 6

end Sys2Proof
end

