-- ==== Sys2Proof/Syntax.lean ====
section
/-! DEFINITION. The commands of the block: one constructor per row of opcode_table.json. A management command
carries the parameter bytes of its frame (section 11.5) exactly as received, so that every FORMAT and RANGE check is
the machine's. An uplink event carries what the frame says (section 11.4); the other events carry the object they
happen to. -/

namespace Sys2Proof

/-- One channel of a REPORT: activity, deferred flag, temperature (R131). Bits 7 to 1 of the flags byte are not
read (R190), so only the flag is kept. -/
structure Triple where
  activity : Byte
  deferred : Bool
  temperature : Byte
deriving DecidableEq, Repr

/-- One pair of an ACK: a handle byte, which may name no handle (R190), and a sequence 0 to 15. -/
structure AckPair where
  handle : Byte
  sequence : BitVec 4
deriving DecidableEq, Repr

/-- The 41 steps of the table of operations and events. -/
inductive Instr where
  /-- SET_ZONE (R39, R40): zone; CB; OB; KB; R; D. -/
  | setZone (zone : Byte) (cb ob kb : Half) (ramp deadband : Byte)
  /-- SET_THERMAL (R106, R107): on and off for WARM, HOT, CRITICAL; WARM derate; HOT derate. -/
  | setThermal (warmOn warmOff hotOn hotOff criticalOn criticalOff warmDerate hotDerate : Byte)
  /-- SET_STATION (R144): station; interval. -/
  | setStation (station interval : Byte)
  /-- SET_SERVICE (R48): the zones of phases 0 to 15. -/
  | setService (zones : Vector Byte 16)
  /-- PLACE_SLED (R111 to R114): sled; zone or 0xFF; channel count; upstream or 0xFF. -/
  | placeSled (sled zone channels upstream : Byte)
  /-- INSTALL (R7 to R11). -/
  | install (tenant sled mask : Byte) (idle peak floor ceiling : Half) (weight wake : Byte)
  /-- AMEND (R12, R13): the selection names floor, ceiling, weight and wake on demand in bits 0 to 3. -/
  | amend (handle selection : Byte) (floor ceiling : Half) (weight wake : Byte)
  /-- AMEND_TENANT (R14): tenant match; tenant mask; ceiling percent. -/
  | amendTenant (tenant mask percent : Byte)
  /-- PAIR (R15, R16): handle A; handle B. -/
  | pair (a b : Byte)
  /-- UNPAIR (R17). -/
  | unpair (handle : Byte)
  /-- PARK (R149 to R151): selector 0x00 handle, 0x01 sled; the number. -/
  | park (selector number : Byte)
  /-- UNPARK (R156): selector 0x00 handle, 0x01 sled; the number. -/
  | unpark (selector number : Byte)
  /-- RETIRE (R18). -/
  | retire (handle : Byte)
  /-- LOOKUP (R21). -/
  | lookup (handle : Byte)
  /-- READ_SLED (R127). -/
  | readSled (sled : Byte)
  /-- READ_ZONE (R41). -/
  | readZone (zone : Byte)
  /-- TAKE_ATTENTION (R166). -/
  | takeAttention
  /-- SET_MASKS (R184): RANGE, ORDER and CONTRACT settings; station mask set. -/
  | setMasks (range order contract stations : Byte)
  /-- READ_FAULTS (R185): clear. -/
  | readFaults (clear : Byte)
  /-- RESTART (R186). -/
  | restart
  /-- REFUSED_FRAME (R182): the take of a frame, given by its bytes, that is refused as a frame. -/
  | refusedFrame (bytes : List Byte)
  /-- RESPONSE_READY (R174). -/
  | responseReady
  /-- READ_TRANSACTION (R172, R175): the complete bytes on MDI through the transaction, the transaction code first. -/
  | readTransaction (mdi : List Byte)
  /-- WRITE_WHILE_BUSY (R172, R176): the end of a WRITE transaction begun while RESPONDING; the complete bytes on MDI
  through it, the transaction code first. -/
  | writeWhileBusy (mdi : List Byte)
  /-- POWER_ON_RESET (R188): RESET_N held low. -/
  | powerOnReset
  /-- RESET_END (R187): RESET_N released. -/
  | resetEnd
  /-- CURTAIL_EDGE (R28): an edge of a zone's curtail input and the level after it. -/
  | curtailEdge (zone : ZoneNo) (level : Bool)
  /-- PERSISTENCE_TIMER_EXPIRY (R28) of a zone's curtail filter. -/
  | persistenceTimerExpiry (zone : ZoneNo)
  /-- RECOMPUTE_COMPLETION (R62). -/
  | recomputeCompletion
  /-- REFRESH_EVENT (R142) of a station. -/
  | refreshEvent (station : StationNo)
  /-- GOING_SILENT (R121) of a sled. -/
  | goingSilent (sled : SledNo)
  /-- LOSS (R123) of a sled. -/
  | loss (sled : SledNo)
  /-- FALLBACK (R126) of a sled. -/
  | fallback (sled : SledNo)
  /-- TRANSMISSION_START (R137) of a station. -/
  | transmissionStart (station : StationNo)
  /-- TRANSMISSION_COMPLETION (R138) of a station. -/
  | transmissionCompletion (station : StationNo)
  /-- DISCARDED_FRAME (R132): the sled whose uplink pair carried the frame, and its bytes. -/
  | discardedFrame (uplink : SledNo) (bytes : List Byte)
  /-- JOIN (R115): the sled and the channel count it declares, any byte (R190). -/
  | join (sled : SledNo) (channels : Byte)
  /-- REPORT (R88): the sled and one triple per channel, channel 0 first. -/
  | report (sled : SledNo) (triples : List Triple)
  /-- ACK (R76): the sled and its pairs in the order carried. -/
  | ack (sled : SledNo) (pairs : List AckPair)
  /-- WARM_TIMER_EXPIRY (R169) of a sled's hold timer. -/
  | warmTimerExpiry (sled : SledNo)
  /-- WRITE_TRANSACTION_BEGIN (R172): the complete bytes on MDI so far, the transaction code first; the WRITE code alone
  where none is named. -/
  | writeTransactionBegin (mdi : List Byte := [0xA5#8])
deriving DecidableEq, Repr

end Sys2Proof
end

