-- ==== Sys2Proof/Decode.lean ====
section
/-! DEFINITION. The bytes of chapter 11 that come IN to the block: management command frames and uplink frames, each
with a decoder that is total on any bytes and refuses by name, and an encoder. No row of opcode_table.json gives
table bits, so no word spells a command (log 18). -/

namespace Sys2Proof

/-! ## The check byte (section 11.1) -/

/-- One bit of the CRC-8 register: polynomial 0x07, most significant bit first. -/
def crcBit (c : Byte) : Byte := if c.msb then (c <<< 1) ^^^ 0x07#8 else c <<< 1

/-- One byte through the CRC-8. -/
def crcByte (c b : Byte) : Byte :=
  crcBit (crcBit (crcBit (crcBit (crcBit (crcBit (crcBit (crcBit (c ^^^ b))))))))

/-- The CRC-8 of a list of bytes: initial value 0xFF, no reflection, no final exclusive-or (section 11.1). -/
def crc8 (bytes : List Byte) : Byte := bytes.foldl crcByte 0xFF#8

/-- A frame is its bytes and the check byte over all of them. -/
def withCheck (bytes : List Byte) : List Byte := bytes ++ [crc8 bytes]

/-- The last byte is the check byte of the bytes before it (R132). -/
def checkHolds (frame : List Byte) : Bool := frame.getLast? == some (crc8 frame.dropLast)

/-! ## 16-bit quantities, most significant byte first (chapter 11) -/

/-- The high byte of a 16-bit quantity. -/
def hiByte (v : Half) : Byte := v.extractLsb' 8 8

/-- The low byte of a 16-bit quantity. -/
def loByte (v : Half) : Byte := v.extractLsb' 0 8

/-- A 16-bit quantity from its two bytes. -/
def half (hi lo : Byte) : Half := hi ++ lo

/-! ## Command frames (section 11.5) -/

/-- The transaction code WRITE (section 11.5). -/
def writeCode : Byte := 0xA5#8

/-- The transaction code READ (section 11.5). -/
def readCode : Byte := 0x5A#8

/-- Why a taken frame is refused before its command is judged (R182). -/
inductive FrameFault where
  | badLength
  | badCheck
  | badCommand
deriving DecidableEq, Repr

/-- The command codes 0x01 to 0x14 (section 11.5). -/
def isCommandCode (code : Byte) : Bool := 1 ≤ code.toNat && code.toNat ≤ 0x14

/-- The command spelled by a code and its parameter bytes, none where their number is not that of the command. -/
def readCommand (code : Byte) (ps : List Byte) : Option Instr :=
  match code.toNat, ps with
  | 0x01, [z, c1, c0, o1, o0, k1, k0, r, d] => some (.setZone z (half c1 c0) (half o1 o0) (half k1 k0) r d)
  | 0x02, [a, b, c, d, e, f, g, h] => some (.setThermal a b c d e f g h)
  | 0x03, [st, i] => some (.setStation st i)
  | 0x04, zs => if h : zs.length = 16 then some (.setService ⟨zs.toArray, by simpa using h⟩) else none
  | 0x05, [d, z, c, u] => some (.placeSled d z c u)
  | 0x06, [t, d, m, i1, i0, p1, p0, f1, f0, c1, c0, w, k] =>
    some (.install t d m (half i1 i0) (half p1 p0) (half f1 f0) (half c1 c0) w k)
  | 0x07, [h, n, f1, f0, c1, c0, w, k] => some (.amend h n (half f1 f0) (half c1 c0) w k)
  | 0x08, [t, m, p] => some (.amendTenant t m p)
  | 0x09, [a, b] => some (.pair a b)
  | 0x0A, [h] => some (.unpair h)
  | 0x0B, [k, n] => some (.park k n)
  | 0x0C, [k, n] => some (.unpark k n)
  | 0x0D, [h] => some (.retire h)
  | 0x0E, [h] => some (.lookup h)
  | 0x0F, [d] => some (.readSled d)
  | 0x10, [z] => some (.readZone z)
  | 0x11, [] => some .takeAttention
  | 0x12, [r, o, c, m] => some (.setMasks r o c m)
  | 0x13, [c] => some (.readFaults c)
  | 0x14, [] => some .restart
  | _, _ => none

/-- How many bytes the command buffer holds (R172). -/
def commandBufferSize : Nat := 40

/-- The frame checks of R182, in their order, and the command a frame that passes them spells, from what the port keeps
of a frame of any length (R191): how many bytes came, the CRC-8 over all but the latest, the latest, and the first 40. A
frame of more than 40 bytes is longer than every command, so step 4 refuses it. -/
def readFrame (received : Nat) (crc : Byte) (latest : Option Byte) (buffer : List Byte) : Except FrameFault Instr :=
  if received < 2 then .error .badLength
  else if latest ≠ some crc then .error .badCheck
  else
    match buffer with
    | [] => .error .badLength
    | code :: rest =>
      if !isCommandCode code then .error .badCommand
      else if commandBufferSize < received then .error .badLength
      else
        match readCommand code rest.dropLast with
        | none => .error .badLength
        | some c => .ok c

/-- The frame checks of R182 on a frame given whole. -/
def decodeFrame (bytes : List Byte) : Except FrameFault Instr :=
  readFrame bytes.length (crc8 bytes.dropLast) bytes.getLast? (bytes.take commandBufferSize)

/-- The code of a management command, none for an event that is no command frame (section 11.5). -/
def commandCode : Instr → Option Byte
  | .setZone .. => some 0x01#8
  | .setThermal .. => some 0x02#8
  | .setStation .. => some 0x03#8
  | .setService .. => some 0x04#8
  | .placeSled .. => some 0x05#8
  | .install .. => some 0x06#8
  | .amend .. => some 0x07#8
  | .amendTenant .. => some 0x08#8
  | .pair .. => some 0x09#8
  | .unpair .. => some 0x0A#8
  | .park .. => some 0x0B#8
  | .unpark .. => some 0x0C#8
  | .retire .. => some 0x0D#8
  | .lookup .. => some 0x0E#8
  | .readSled .. => some 0x0F#8
  | .readZone .. => some 0x10#8
  | .takeAttention => some 0x11#8
  | .setMasks .. => some 0x12#8
  | .readFaults .. => some 0x13#8
  | .restart => some 0x14#8
  | .refusedFrame .. | .responseReady | .readTransaction .. | .writeWhileBusy .. | .powerOnReset | .resetEnd
  | .curtailEdge .. | .persistenceTimerExpiry .. | .recomputeCompletion | .refreshEvent .. | .goingSilent ..
  | .loss .. | .fallback .. | .transmissionStart .. | .transmissionCompletion .. | .discardedFrame .. | .join ..
  | .report .. | .ack .. | .warmTimerExpiry .. | .writeTransactionBegin .. => none

/-- The parameter bytes of a management command, in the order of section 11.5. -/
def parameters : Instr → List Byte
  | .setZone z cb ob kb r d => [z, hiByte cb, loByte cb, hiByte ob, loByte ob, hiByte kb, loByte kb, r, d]
  | .setThermal a b c d e f g h => [a, b, c, d, e, f, g, h]
  | .setStation st i => [st, i]
  | .setService zs => zs.toList
  | .placeSled d z c u => [d, z, c, u]
  | .install t d m i p f c w k =>
    [t, d, m, hiByte i, loByte i, hiByte p, loByte p, hiByte f, loByte f, hiByte c, loByte c, w, k]
  | .amend h n f c w k => [h, n, hiByte f, loByte f, hiByte c, loByte c, w, k]
  | .amendTenant t m p => [t, m, p]
  | .pair a b => [a, b]
  | .unpair h => [h]
  | .park k n => [k, n]
  | .unpark k n => [k, n]
  | .retire h => [h]
  | .lookup h => [h]
  | .readSled d => [d]
  | .readZone z => [z]
  | .takeAttention => []
  | .setMasks r o c m => [r, o, c, m]
  | .readFaults c => [c]
  | .restart => []
  | .refusedFrame .. | .responseReady | .readTransaction .. | .writeWhileBusy .. | .powerOnReset | .resetEnd
  | .curtailEdge .. | .persistenceTimerExpiry .. | .recomputeCompletion | .refreshEvent .. | .goingSilent ..
  | .loss .. | .fallback .. | .transmissionStart .. | .transmissionCompletion .. | .discardedFrame .. | .join ..
  | .report .. | .ack .. | .warmTimerExpiry .. | .writeTransactionBegin .. => []

/-- The command frame of a management command: code, parameters, check byte. -/
def encodeFrame (c : Instr) : Option (List Byte) :=
  (commandCode c).map fun code => withCheck (code :: parameters c)

/-! ## Uplink frames (sections 11.2, 11.4) -/

/-- Why the station link controller discards an uplink frame: the tests of R132 in their order. -/
inductive Discard where
  | parity
  | direction
  | sledNumber
  | check
  | malformed
deriving DecidableEq, Repr

/-- How many ones a byte has. -/
def onesIn (b : Byte) : Nat := ((List.range 8).filter fun i => b.getLsbD i).length

/-- The address byte: sled number, direction in bit 6, and in bit 7 the parity that makes the count of ones odd
(section 11.2, R189). -/
def addressByte (uplink : Bool) (d : SledNo) : Byte :=
  let low : Byte := BitVec.ofNat 8 (d.val + if uplink then 64 else 0)
  if onesIn low % 2 = 1 then low else low ||| 0x80#8

/-- The triples of a REPORT's body (section 11.4): of the flags byte only bit 0 is read (R190). -/
def readTriples : List Byte → Option (List Triple)
  | [] => some []
  | a :: f :: t :: rest => (readTriples rest).map fun ts => ⟨a, f.getLsbD 0, t⟩ :: ts
  | _ => none

/-- The pairs of an ACK's body (section 11.4): a sequence byte above 15 makes the frame malformed (R190). -/
def readPairs : List Byte → Option (List AckPair)
  | [] => some []
  | h :: q :: rest =>
    if q.toNat ≤ 15 then (readPairs rest).map fun ps => ⟨h, q.setWidth 4⟩ :: ps else none
  | _ => none

/-- One to four of something. -/
def oneToFour {α : Type} (l : List α) : Bool := 1 ≤ l.length && l.length ≤ 4

/-- The event an uplink frame's kind byte and body spell, none where the frame is malformed (R190). -/
def readUplink (d : SledNo) (kind : Byte) (body : List Byte) : Option Instr :=
  match kind.toNat, body with
  | 0x01, [count] => some (.join d count)
  | 0x02, body => (readTriples body).bind fun ts => if oneToFour ts then some (.report d ts) else none
  | 0x03, body => (readPairs body).bind fun ps => if oneToFour ps then some (.ack d ps) else none
  | _, _ => none

/-- The tests the station link controller makes of an uplink frame carried by the pair of sled `d` (R132, R189,
R190), in their order, and the event a valid frame is. -/
def decodeUplink (d : SledNo) (bytes : List Byte) : Except Discard Instr :=
  match bytes with
  | [] => .error .malformed
  | address :: rest =>
    if onesIn address % 2 = 0 then .error .parity
    else if !address.getLsbD 6 then .error .direction
    else if address.toNat % 64 ≠ d.val then .error .sledNumber
    else if !checkHolds bytes then .error .check
    else
      match rest with
      | kind :: body =>
        match readUplink d kind body.dropLast with
        | some e => if 3 ≤ bytes.length && bytes.length ≤ 15 then .ok e else .error .malformed
        | none => .error .malformed
      | [] => .error .malformed

/-- One triple in bytes: the flags byte carries the deferred flag in bit 0 (section 11.4). DESIGN CHOICE (log 25): bits 7
to 1, which the manual leaves unread in a REPORT (R190), are written 0, in the sled image too. -/
def tripleBytes (t : Triple) : List Byte := [t.activity, if t.deferred then 0x01#8 else 0x00#8, t.temperature]

/-- The body of an ACK. -/
def pairBytes (p : AckPair) : List Byte := [p.handle, p.sequence.setWidth 8]

/-- The uplink frame of a JOIN, a REPORT or an ACK (section 11.4), none for any other command. -/
def encodeUplink : Instr → Option (List Byte)
  | .join d count => some (withCheck [addressByte true d, 0x01#8, count])
  | .report d ts => some (withCheck (addressByte true d :: 0x02#8 :: ts.flatMap tripleBytes))
  | .ack d ps => some (withCheck (addressByte true d :: 0x03#8 :: ps.flatMap pairBytes))
  | .setZone .. | .setThermal .. | .setStation .. | .setService .. | .placeSled .. | .install .. | .amend ..
  | .amendTenant .. | .pair .. | .unpair .. | .park .. | .unpark .. | .retire .. | .lookup .. | .readSled ..
  | .readZone .. | .takeAttention | .setMasks .. | .readFaults .. | .restart | .refusedFrame .. | .responseReady
  | .readTransaction .. | .writeWhileBusy .. | .powerOnReset | .resetEnd | .curtailEdge ..
  | .persistenceTimerExpiry .. | .recomputeCompletion | .refreshEvent .. | .goingSilent .. | .loss ..
  | .fallback .. | .transmissionStart .. | .transmissionCompletion .. | .discardedFrame .. | .warmTimerExpiry ..
  | .writeTransactionBegin .. => none

/-! ## Table words -/

/-- The command a table word spells: no row of opcode_table.json gives bits, so none does (log 18). -/
def decodeTableWord (_nbits _w : Nat) : Option Instr := none

end Sys2Proof
end

