-- ==== Sys2Proof/Config.lean ====
section
/-! DEFINITION. What a given part fixes and the manual does not: the revision byte (R193). Everything else the
manual states. -/

namespace Sys2Proof.Config

/-- The revision byte of the identity block: "fixed for a given part and ... the same after every power-on reset"
(R193). The manual gives no number, so none is chosen here (log 7). -/
opaque revision : Byte

end Sys2Proof.Config
end

