-- ==== Sys2Proof/Machine/State.lean ====
section
/-! DEFINITION. Every piece of state the manual gives the MTC-48, as plain data, and the machine right after reset.
INVENTORY.md lists each with the rule that names it. -/

namespace Sys2Proof.Machine

/-! ## Names of the manual -/

/-- The fault classes in their order of precedence (section 10.3). -/
inductive FaultClass where
  | format | state | capacity | conflict | range | order | contract
deriving DecidableEq, Repr

/-- The details of a refusal, by class in the order of section 10.3. -/
inductive Detail where
  | badLength | badCheck | badCommand | badNumber
  | handleFree | retiring | sledUnplaced | hasAllotments
  | tableFull
  | maskEmpty | maskOutside | maskOverlap | sameHandle | paired | sameSled | zoneDiffers | contractDiffers
  | parkDiffers | selfUpstream | upstreamUnplaced | cycle | tooDeep | isUpstream
  | idle | peak | floor | ceiling | weight | percent | cb | ob | kb | ramp | threshold | derate | channels | interval
  | peakNotAboveIdle | floorBelowIdle | floorAbovePeak | ceilingBelowFloor | ceilingAbovePeak | thresholdOrder
  | noRoom | belowFloors
deriving DecidableEq, Repr

/-- A running time: the manual's timers are kept as stopped or running; the time in them is left out (log 1). -/
inductive Timer where
  | stopped | running
deriving DecidableEq, Repr

/-! ## Allotment records (chapter 1) -/

/-- The tag of a living record (section 1.1). FREE is the absence of a record. -/
inductive Tag where
  | live | retiring
deriving DecidableEq, Repr

/-- The grant states (section 1.4). -/
inductive GrantState where
  | unlinked | changing | settled | held | parkPending | parking | parked | fallen
deriving DecidableEq, Repr

/-- The latest entry field (section 1.3, R66): for a GRANT its W, its Wf and the floor Wf was computed from. -/
inductive Latest where
  | none
  | grant (window floorWindow floor : Nat)
  | park
  | release
deriving DecidableEq, Repr

/-- A living allotment record: contract fields (section 1.2) and runtime fields (section 1.3). -/
structure Allotment where
  tag : Tag
  tenant : Byte
  sled : SledNo
  mask : ChannelMask
  idle : Nat
  peak : Nat
  floor : Nat
  ceiling : Nat
  weight : Nat
  /-- wake on demand -/
  wake : Bool
  partner : Option Handle
  demand : Option Nat
  demandUsed : Option Nat
  target : Nat
  /-- sent grant -/
  sent : Nat
  sequence : BitVec 4
  /-- acknowledged grant -/
  acked : Nat
  /-- highest unacknowledged -/
  highest : Nat
  grant : GrantState
  restatements : Nat
  /-- wake after park -/
  wakeAfter : Bool
  /-- snapshot mark -/
  mark : Bool
  latest : Latest
  /-- unacknowledged placements -/
  unacked : Nat
  fallbackFloor : Nat
deriving DecidableEq, Repr

/-! ## Zone records (chapter 2) -/

/-- A zone record with its curtail filter (section 2.1, R28, R30). `firstTaken`: the line's first level after reset
has been taken, which R30 makes the filter act on (log 17). -/
structure Zone where
  cb : Nat
  ob : Nat
  kb : Nat
  ramp : Nat
  deadband : Nat
  /-- curtail line active: the taken level -/
  taken : Bool
  firstTaken : Bool
  candidate : Option Bool
  filter : Timer
  /-- budget in effect B -/
  budget : Nat
  floorSum : Nat
  /-- exposure X -/
  x : Nat
  short : Bool
  spare : Nat
  normalReq : Bool
  urgentReq : Bool
  count : Nat
deriving DecidableEq, Repr

/-! ## Sled records (chapter 6) -/

/-- Link states (section 6.4). -/
inductive Link where
  | unplaced | idle | linked | silent | lost
deriving DecidableEq, Repr

/-- Thermal states (section 5.1), in their order. -/
inductive Thermal where
  | normal | warm | hot | critical
deriving DecidableEq, Repr

/-- The placement of a placed sled (section 6.2). -/
structure Placement where
  zone : ZoneNo
  channels : Nat
  upstream : Option SledNo
deriving DecidableEq, Repr

/-- A sled record (section 6.2). -/
structure Sled where
  placement : Option Placement
  link : Link
  silence : Nat
  /-- fallback count -/
  fallbacks : Nat
  /-- fallback elapsed -/
  elapsed : Bool
  /-- welcome answered -/
  answered : Bool
  report : Option (List Triple)
  /-- own thermal state -/
  own : Thermal
  /-- effective thermal state -/
  eff : Thermal
  handles : List Handle
deriving DecidableEq, Repr

/-! ## Station link controllers (chapter 7) -/

/-- What an entry of a downlink frame tells the sled (section 7.1). -/
inductive EntryKind where
  | grant (window floorWindow : Nat)
  | park
  | release
deriving DecidableEq, Repr

/-- An entry of a downlink frame (section 7.1). -/
structure Entry where
  handle : Handle
  sequence : BitVec 4
  mask : ChannelMask
  kind : EntryKind
deriving DecidableEq, Repr

/-- The two kinds of downlink frame (R130). -/
inductive FrameKind where
  | welcome (parkMask : ChannelMask)
  | grant
deriving DecidableEq, Repr

/-- A waiting downlink frame (R130, R135). -/
structure Frame where
  sled : SledNo
  kind : FrameKind
  entries : List Entry
deriving DecidableEq, Repr

/-- The frame in transmission: closed, with the interval written into its header and the bytes as sent (R137, R189). -/
structure Transmission where
  frame : Frame
  interval : Nat
  bytes : List Byte
deriving DecidableEq, Repr

/-- One station link controller (section 7.5). -/
structure Station where
  queue : List Frame
  sending : Option Transmission
  interval : Nat
  pendingInterval : Option Nat
  timer : Timer
deriving DecidableEq, Repr

/-! ## Report assessor (chapter 5) -/

/-- Thresholds and derates (R95, R105). -/
structure Assessor where
  warmOn : Nat
  warmOff : Nat
  hotOn : Nat
  hotOff : Nat
  criticalOn : Nat
  criticalOff : Nat
  warmDerate : Nat
  hotDerate : Nat
deriving DecidableEq, Repr

/-! ## Apportioner (chapter 3) -/

/-- What the snapshot holds of one living record (R49), with the effective thermal state of its sled. -/
structure Snap where
  handle : Handle
  tag : Tag
  idle : Nat
  peak : Nat
  floor : Nat
  ceiling : Nat
  weight : Nat
  partner : Option Handle
  demand : Option Nat
  grant : GrantState
  eff : Thermal
deriving DecidableEq, Repr

/-- The apportioner while busy: the zone in service and the snapshot (R44, R49). -/
structure Service where
  zone : ZoneNo
  budget : Nat
  warmDerate : Nat
  hotDerate : Nat
  snaps : List Snap
deriving DecidableEq, Repr

/-! ## Attention unit (chapter 9) -/

/-- The causes of a zone item. -/
structure ZoneItem where
  short : Bool
  curtail : Bool
deriving DecidableEq, Repr

/-- The causes of a sled item. -/
structure SledItem where
  warm : Bool
  hot : Bool
  critical : Bool
  lost : Bool
  refused : Bool
  sensor : Bool
deriving DecidableEq, Repr

/-- The 57 items and 6 station masks (section 9.1). -/
structure AttentionUnit where
  /-- POWERED_UP -/
  device : Bool
  zones : Vector ZoneItem 8
  sleds : Vector SledItem 48
  masks : Vector Bool 6
deriving DecidableEq, Repr

/-! ## Management port (chapter 10) -/

/-- Port states (section 10.1). -/
inductive PortState where
  | idle | taking | responding
deriving DecidableEq, Repr

/-- The classes in which parameters were adjusted (R177). -/
structure Adjusted where
  range : Bool
  order : Bool
  contract : Bool
deriving DecidableEq, Repr

/-- The result of a response (R177). -/
inductive Result where
  | done (already : Bool)
  | adjusted (classes : Adjusted)
  | refused (detail : Detail)
deriving DecidableEq, Repr

/-- A response: the code it answers, its result and its payload; its length and check byte follow from them
(section 11.6). -/
structure Response where
  code : Byte
  result : Result
  payload : List Byte
deriving DecidableEq, Repr

/-- The fault masks (R179): true is adjust, false is refuse. -/
structure FaultMasks where
  range : Bool
  order : Bool
  contract : Bool
deriving DecidableEq, Repr

/-- The sticky fault flags (R180). -/
structure StickyFlags where
  format : Bool
  state : Bool
  capacity : Bool
  conflict : Bool
  range : Bool
  order : Bool
  contract : Bool
  responseLost : Bool
  writeWhileBusy : Bool
deriving DecidableEq, Repr

/-- The last refused record (R181); its class is the class of its detail. -/
structure RefusedRecord where
  command : Byte
  parameter : Option Byte
  detail : Detail
deriving DecidableEq, Repr

/-- The management port (section 10.1). `building` is the response whose content the take has fixed (R173 step 5)
and that is not yet ready (R174). -/
structure Port where
  state : PortState
  /-- The command buffer: the first 40 bytes of the frame being written, or last taken (R172). -/
  command : List Byte
  /-- How many bytes of that frame have come, those beyond the 40th counted too (R172). -/
  received : Nat
  /-- The running CRC-8 over all of those bytes but the latest (R191). -/
  crc : Byte
  /-- The latest of those bytes (R191). -/
  latest : Option Byte
  response : Option Response
  building : Option Response
  responseRead : Bool
  masks : FaultMasks
  flags : StickyFlags
  lastRefused : Option RefusedRecord
deriving DecidableEq, Repr

/-! ## The machine -/

/-- The whole block. -/
structure State where
  /-- The 160 records; a FREE record holds nothing (R1, R23). -/
  allotments : Vector (Option Allotment) 160
  /-- The free handle stack, top first (R6). -/
  stack : List Handle
  zones : Vector Zone 8
  sleds : Vector Sled 48
  stations : Vector Station 6
  assessor : Assessor
  /-- The THERMAL_WARM hold timers (R102). -/
  warmTimers : Vector Timer 48
  /-- Present exactly while the apportioner is busy (R44). -/
  service : Option Service
  /-- The service table (R48). -/
  table : Vector ZoneNo 16
  /-- The phase pointer (R47). -/
  pointer : Fin 16
  attention : AttentionUnit
  port : Port
  /-- RESET_N is low (R187). -/
  resetHeld : Bool
  /-- The levels on CURTAIL0 to CURTAIL7, true active. -/
  curtailPins : Vector Bool 8
  /-- The READY output, true active. -/
  readyPin : Bool
  /-- The ATTENTION output, true when driven active (low). -/
  attentionPin : Bool
  /-- The bytes shifted out on MDO, after the transaction code, by the transaction last begun (log 8). -/
  mdo : List Byte
  /-- The model's own: the commands waiting, the first at the front. -/
  pending : List Instr
deriving DecidableEq, Repr

/-- There is no fault: every condition the manual calls a fault is a response, a flag or a discarded frame, and the
block goes on. -/
inductive Fault where
deriving DecidableEq, Repr

/-- Why a command is refused by the MODEL (not by the part's own REFUSED responses, which are results). -/
inductive Refusal where
  /-- Raised by exec's arm of a command that has no meaning yet: safe. No arm answers it. -/
  | notModelled (mnemonic : String)
deriving DecidableEq, Repr

/-! ## Reset -/

/-- A zone record after power-on reset (R42, R30). -/
def Zone.powerOn : Zone where
  cb := 0
  ob := 0
  kb := 0
  ramp := 16
  deadband := 4
  taken := false
  firstTaken := false
  candidate := none
  filter := .stopped
  budget := 0
  floorSum := 0
  x := 0
  short := false
  spare := 0
  normalReq := false
  urgentReq := false
  count := 0

/-- A sled record after power-on reset (R128). -/
def Sled.powerOn : Sled where
  placement := none
  link := .unplaced
  silence := 0
  fallbacks := 0
  elapsed := false
  answered := false
  report := none
  own := .normal
  eff := .normal
  handles := []

/-- A station link controller after power-on reset; its timer starts when reset ends (R147). -/
def Station.powerOn : Station where
  queue := []
  sending := none
  interval := 10
  pendingInterval := none
  timer := .stopped

/-- Thresholds and derates after power-on reset (R108). -/
def Assessor.powerOn : Assessor where
  warmOn := 160
  warmOff := 152
  hotOn := 176
  hotOff := 168
  criticalOn := 190
  criticalOff := 180
  warmDerate := 75
  hotDerate := 50

/-- A zone item holding no cause. -/
def ZoneItem.empty : ZoneItem := ⟨false, false⟩

/-- A sled item holding no cause. -/
def SledItem.empty : SledItem := ⟨false, false, false, false, false, false⟩

/-- The attention unit after power-on reset (R170). DEDUCED (log 27): no rule says what the device item holds while
RESET_N is low; it is empty, as R165 needs with ATTENTION released (R187). -/
def AttentionUnit.powerOn : AttentionUnit where
  device := false
  zones := Vector.replicate 8 ZoneItem.empty
  sleds := Vector.replicate 48 SledItem.empty
  masks := Vector.replicate 6 false

/-- No flag set. -/
def StickyFlags.clear : StickyFlags := ⟨false, false, false, false, false, false, false, false, false⟩

/-- The start-up response (R187): code for none, DONE, and the identity block 0x0B48 with the revision (section
11.6). -/
def Response.startUp : Response := ⟨0x00#8, .done false, [0x0B#8, 0x48#8, Config.revision]⟩

/-- The management port after power-on reset (section 10.1, R187). No byte of a frame has come, so the running CRC-8 is
its initial value (section 11.1; log 17). -/
def Port.powerOn : Port where
  state := .idle
  command := []
  received := 0
  crc := 0xFF#8
  latest := none
  response := some Response.startUp
  building := none
  responseRead := true
  masks := ⟨true, false, false⟩
  flags := StickyFlags.clear
  lastRefused := none

/-- The power-on values, while RESET_N is held low, with the given levels on the curtail inputs and commands waiting
(R23, R42, R64, R84, R108, R128, R147, R161, R170, R187, R188). -/
def State.powerOn (curtailPins : Vector Bool 8) (pending : List Instr) : State where
  allotments := Vector.replicate 160 none
  stack := List.finRange 160
  zones := Vector.replicate 8 Zone.powerOn
  sleds := Vector.replicate 48 Sled.powerOn
  stations := Vector.replicate 6 Station.powerOn
  assessor := Assessor.powerOn
  warmTimers := Vector.replicate 48 .stopped
  service := none
  table := #v[0, 1, 2, 3, 4, 5, 6, 7, 0, 1, 2, 3, 4, 5, 6, 7]
  pointer := 15
  attention := AttentionUnit.powerOn
  port := Port.powerOn
  resetHeld := true
  curtailPins := curtailPins
  readyPin := false
  attentionPin := false
  mdo := []
  pending := pending

/-- The machine right after reset has ended: the power-on values, each curtail line sampled into its filter (R30),
the refresh timers started (R147), READY active and POWERED_UP raised (R187). DESIGN CHOICE (log 2): the levels
sampled on the curtail inputs are inactive; they are inputs and the manual gives none. -/
def State.reset : State :=
  { State.powerOn (Vector.replicate 8 false) [] with
    zones := Vector.replicate 8 { Zone.powerOn with candidate := some false, filter := .running }
    stations := Vector.replicate 6 { Station.powerOn with timer := .running }
    attention := { AttentionUnit.powerOn with device := true }
    resetHeld := false
    readyPin := true
    attentionPin := true }

end Sys2Proof.Machine
end

