-- ==== Sys2Proof/Machine/Ops.lean ====
section
/-! DEFINITION. The named operations over the block's records, sums and queues: reading and writing one record, the
exposure and its report to the zone budget unit, recompute requests, the downlink queues, the placing of an entry, and
the gate of reset. -/

namespace Sys2Proof.Machine

/-! ## Reading and writing one record -/

/-- The living record of a handle, none while it is FREE (R1). -/
def State.allot (s : State) (h : Handle) : Option Allotment := s.allotments[h]

/-- A zone record. -/
def State.zone (s : State) (z : ZoneNo) : Zone := s.zones[z]

/-- A sled record. -/
def State.sled (s : State) (d : SledNo) : Sled := s.sleds[d]

/-- A station link controller. -/
def State.station (s : State) (st : StationNo) : Station := s.stations[st]

/-- Write the place of a handle in the allotment table and nothing else. -/
def State.setAllot (h : Handle) (r : Option Allotment) (s : State) : State :=
  { s with allotments := s.allotments.set h r }

/-- Change one zone record. -/
def State.updZone (z : ZoneNo) (f : Zone → Zone) (s : State) : State :=
  { s with zones := s.zones.set z (f s.zones[z]) }

/-- Change one sled record. -/
def State.updSled (d : SledNo) (f : Sled → Sled) (s : State) : State :=
  { s with sleds := s.sleds.set d (f s.sleds[d]) }

/-- Change one station link controller. -/
def State.updStation (st : StationNo) (f : Station → Station) (s : State) : State :=
  { s with stations := s.stations.set st (f s.stations[st]) }

/-- Change the management port. -/
def State.updPort (f : Port → Port) (s : State) : State := { s with port := f s.port }

/-- Write one THERMAL_WARM hold timer (R102). -/
def State.setWarmTimer (d : SledNo) (t : Timer) (s : State) : State :=
  { s with warmTimers := s.warmTimers.set d t }

/-- A fixed number of like things, each from its number. -/
def tabulate {α : Type} {n : Nat} (f : Fin n → α) : Vector α n := ⟨⟨(List.finRange n).map f⟩, by simp⟩

/-- The station of a sled (section 6.1). -/
def stationOf (d : SledNo) : StationNo := ⟨d.val / 8, by omega⟩

/-- The sleds of a station, by ascending position (section 6.1). -/
def sledsOf (st : StationNo) : List SledNo := (List.finRange 48).filter fun d => stationOf d == st

/-- The zone a sled is placed in. -/
def State.zoneOfSled (s : State) (d : SledNo) : Option ZoneNo := (s.sled d).placement.map (·.zone)

/-- The zone of an allotment is the zone of its sled (R2). -/
def State.zoneOf (s : State) (r : Allotment) : Option ZoneNo := s.zoneOfSled r.sled

/-- The living records of a zone, in ascending handle order (R25). -/
def State.zoneHandles (s : State) (z : ZoneNo) : List Handle :=
  (List.finRange 160).filter fun h =>
    match s.allot h with
    | some r => s.zoneOf r == some z
    | none => false

/-- The sled is LINKED or SILENT: entries may be placed for its records (R66). -/
def State.reachable (s : State) (d : SledNo) : Bool :=
  match (s.sled d).link with
  | .linked | .silent => true
  | .unplaced | .idle | .lost => false

/-! ## Exposure (R5, R31) -/

/-- The exposure of a living record, fixed by its grant state (R5). -/
def Allotment.exposure (r : Allotment) : Nat :=
  match r.grant with
  | .unlinked | .parked => r.idle
  | .fallen => r.acked
  | .changing | .settled | .held | .parkPending | .parking => max r.acked r.highest

/-- The exposure at a place of the table: a FREE record has none (R5). -/
def exposureOf (r : Option Allotment) : Nat :=
  match r with
  | none => 0
  | some r => r.exposure

/-- A change of exposure reported to the zone budget unit, which keeps X as a running sum (R31). -/
def State.reportExposure (zo : Option ZoneNo) (old new : Nat) (s : State) : State :=
  match zo with
  | none => s
  | some z => s.updZone z fun r => { r with x := r.x + new - old }

/-- Write a living record and report the change of its exposure in the same event (R5, R31). -/
def State.putAllot (h : Handle) (r : Allotment) (s : State) : State :=
  (s.setAllot h (some r)).reportExposure (s.zoneOf r) (exposureOf (s.allot h)) r.exposure

/-- Change a living record, its exposure reported; a FREE handle is left. -/
def State.modAllot (h : Handle) (f : Allotment → Allotment) (s : State) : State :=
  match s.allot h with
  | none => s
  | some r => s.putAllot h (f r)

/-- Set the grant state of a record. -/
def State.setGrant (h : Handle) (g : GrantState) (s : State) : State :=
  s.modAllot h fun r => { r with grant := g }

/-- Set the target of a record. -/
def State.setTarget (h : Handle) (t : Nat) (s : State) : State :=
  s.modAllot h fun r => { r with target := t }

/-- Set acknowledged grant, highest unacknowledged and sent grant to one value. -/
def Allotment.level (v : Nat) (r : Allotment) : Allotment := { r with acked := v, highest := v, sent := v }

/-! ## Recompute requests (R45) -/

/-- Set the normal request of a zone. -/
def State.requestNormal (z : ZoneNo) (s : State) : State := s.updZone z fun r => { r with normalReq := true }

/-- Set the urgent request of a zone. -/
def State.requestUrgent (z : ZoneNo) (s : State) : State := s.updZone z fun r => { r with urgentReq := true }

/-- Set the normal request of a sled's zone. -/
def State.requestNormalFor (d : SledNo) (s : State) : State :=
  match s.zoneOfSled d with
  | none => s
  | some z => s.requestNormal z

/-- Set the normal request of every zone. -/
def State.requestAll (s : State) : State := (List.finRange 8).foldl (fun s z => s.requestNormal z) s

/-! ## The downlink queue (R135, R136, R139) -/

/-- Put an entry into an entry list: in the place of the handle's entry, or in its ascending place (R136). -/
def putEntry (e : Entry) : List Entry → List Entry
  | [] => [e]
  | x :: xs =>
    if x.handle = e.handle then e :: xs
    else if e.handle < x.handle then e :: x :: xs
    else x :: putEntry e xs

/-- Put an entry into the queue: into the sled's waiting frame, or into a new GRANT frame at the tail (R136). -/
def enqueue (d : SledNo) (e : Entry) : List Frame → List Frame
  | [] => [⟨d, .grant, [e]⟩]
  | f :: fs => if f.sled = d then { f with entries := putEntry e f.entries } :: fs else f :: enqueue d e fs

/-- The sled's waiting frame (R135: at most one). -/
def waitingFrame (d : SledNo) (q : List Frame) : Option Frame := q.find? fun f => f.sled == d

/-- Remove every waiting frame of a sled (R139). -/
def State.dropFrames (d : SledNo) (s : State) : State :=
  s.updStation (stationOf d) fun st => { st with queue := st.queue.filter fun f => f.sled != d }

/-- Remove a handle's entry from the waiting frames of a sled; a frame left empty stays (R20 step 2, R139). -/
def State.dropEntry (d : SledNo) (h : Handle) (s : State) : State :=
  s.updStation (stationOf d) fun st =>
    { st with
      queue := st.queue.map fun f =>
        if f.sled = d then { f with entries := f.entries.filter fun e => e.handle != h } else f }

/-! ## Placing an entry (R66, R67) -/

/-- The duty window of a value (R67): truncated, and at least 1. -/
def windowFor (idle peak value : Nat) : Nat := max 1 (255 * (value - idle) / (peak - idle))

/-- What the dispatcher places: a GRANT with its value, a PARK or a RELEASE (section 4.1). -/
inductive Placing where
  | grant (value : Nat)
  | park
  | release
deriving DecidableEq, Repr

/-- The record once an entry is placed (R66): the sequence advances, and a GRANT sets the sent grant, raises the
highest unacknowledged and the fallback floor, and is kept with W, Wf and the floor. -/
def Allotment.advance (p : Placing) (g : GrantState) (r : Allotment) : Allotment :=
  let r := { r with sequence := r.sequence + 1, restatements := 0, unacked := r.unacked + 1, grant := g }
  match p with
  | .grant v =>
    { r with
      sent := v
      highest := max r.highest v
      fallbackFloor := max r.fallbackFloor r.floor
      latest := .grant (windowFor r.idle r.peak v) (windowFor r.idle r.peak r.floor) r.floor }
  | .park => { r with latest := .park }
  | .release => { r with latest := .release }

/-- The entry a record's latest entry field and sequence stand for, as it was placed (R66, R143). -/
def Allotment.latestEntry (h : Handle) (r : Allotment) : Option Entry :=
  match r.latest with
  | .none => none
  | .grant w wf _ => some ⟨h, r.sequence, r.mask, .grant w wf⟩
  | .park => some ⟨h, r.sequence, r.mask, .park⟩
  | .release => some ⟨h, r.sequence, r.mask, .release⟩

/-- Hand an entry to the station link controller of a sled (R136). -/
def State.handEntry (d : SledNo) (e : Option Entry) (s : State) : State :=
  match e with
  | none => s
  | some e => s.updStation (stationOf d) fun st => { st with queue := enqueue d e st.queue }

/-- Whether an entry may be placed for a record: its sled LINKED or SILENT and fewer than 15 unacknowledged
placements (R66). -/
def State.mayPlace (s : State) (r : Allotment) : Bool := s.reachable r.sled && decide (r.unacked < 15)

/-- Place an entry for a handle, the grant state becoming `g` (R66). Where R66 holds it back, nothing changes. -/
def State.place (h : Handle) (p : Placing) (g : GrantState) (s : State) : State :=
  match s.allot h with
  | none => s
  | some r =>
    if s.mayPlace r then
      (s.putAllot h (r.advance p g)).handEntry r.sled ((r.advance p g).latestEntry h)
    else s

/-! ## Freeing (R20) -/

/-- Free a record: out of the zone's sums and count, out of its waiting frame and its sled's list, its place FREE and
its handle on top of the stack, the zone requested (R20, R25). The headroom retry is its caller's (R32). -/
def State.freeAllot (h : Handle) (s : State) : State :=
  match s.allot h with
  | none => s
  | some r =>
    let s1 :=
      match s.zoneOf r with
      | none => s
      | some z =>
        s.updZone z fun v =>
          { v with x := v.x - r.exposure, floorSum := v.floorSum - r.floor, count := v.count - 1 }
    let s2 := s1.dropEntry r.sled h
    let s3 := s2.updSled r.sled fun v => { v with handles := v.handles.filter fun k => k != h }
    let s4 := s3.setAllot h none
    State.requestNormalFor r.sled { s4 with stack := h :: s4.stack }

/-! ## Reset gate -/

/-- While RESET_N is held low nothing but the reset rows and the input pins acts (R187, R188; log 9). -/
def unlessReset (f : State → State) (s : State) : State := if s.resetHeld then s else f s

end Sys2Proof.Machine
end

