-- ==== Sys2Proof/Machine/Flags.lean ====
section
/-! DEFINITION. Flags and causes: the fault classes and the sticky flags of the management port (R180, R181), and the
attention items with the ATTENTION output (R162 to R166). -/

namespace Sys2Proof.Machine

/-! ## Fault classes and sticky flags -/

/-- The class a detail belongs to (section 10.3). -/
def Detail.faultClass : Detail → FaultClass
  | .badLength | .badCheck | .badCommand | .badNumber => .format
  | .handleFree | .retiring | .sledUnplaced | .hasAllotments => .state
  | .tableFull => .capacity
  | .maskEmpty | .maskOutside | .maskOverlap | .sameHandle | .paired | .sameSled | .zoneDiffers
  | .contractDiffers | .parkDiffers | .selfUpstream | .upstreamUnplaced | .cycle | .tooDeep | .isUpstream => .conflict
  | .idle | .peak | .floor | .ceiling | .weight | .percent | .cb | .ob | .kb | .ramp | .threshold | .derate
  | .channels | .interval => .range
  | .peakNotAboveIdle | .floorBelowIdle | .floorAbovePeak | .ceilingBelowFloor | .ceilingAbovePeak
  | .thresholdOrder => .order
  | .noRoom | .belowFloors => .contract

/-- Set the flag of one class; a flag already set stays set (R180). -/
def StickyFlags.raise (c : FaultClass) (f : StickyFlags) : StickyFlags :=
  match c with
  | .format => { f with format := true }
  | .state => { f with state := true }
  | .capacity => { f with capacity := true }
  | .conflict => { f with conflict := true }
  | .range => { f with range := true }
  | .order => { f with order := true }
  | .contract => { f with contract := true }

/-- Set the flag of every class named in an ADJUSTED result (R180). -/
def StickyFlags.raiseAdjusted (a : Adjusted) (f : StickyFlags) : StickyFlags :=
  { f with range := f.range || a.range, order := f.order || a.order, contract := f.contract || a.contract }

/-- No class adjusted. -/
def Adjusted.none : Adjusted := ⟨false, false, false⟩

/-- At least one class adjusted. -/
def Adjusted.any (a : Adjusted) : Bool := a.range || a.order || a.contract

/-! ## Attention items -/

/-- A zone item is pending while it holds a cause (section 9.1). -/
def ZoneItem.isPending (i : ZoneItem) : Bool := i.short || i.curtail

/-- A sled item is pending while it holds a cause (section 9.1). -/
def SledItem.isPending (i : SledItem) : Bool := i.warm || i.hot || i.critical || i.lost || i.refused || i.sensor

/-- The causes of a sled item. -/
inductive SledCause where
  | warm | hot | critical | lost | refused | sensor
deriving DecidableEq, Repr

/-- Add a cause to a sled item; one already there changes nothing (R162). -/
def SledItem.add (c : SledCause) (i : SledItem) : SledItem :=
  match c with
  | .warm => { i with warm := true }
  | .hot => { i with hot := true }
  | .critical => { i with critical := true }
  | .lost => { i with lost := true }
  | .refused => { i with refused := true }
  | .sensor => { i with sensor := true }

/-- The sled item of a sled is masked while its station's mask is (R164). -/
def AttentionUnit.masked (a : AttentionUnit) (d : SledNo) : Bool := a.masks[stationOf d]

/-- An attention item (section 9.1). -/
inductive ItemName where
  | device
  | zone (z : ZoneNo)
  | sled (d : SledNo)
deriving DecidableEq, Repr

/-- The items in the fixed order of R166: device, zones 0 to 7, sleds 0 to 47. -/
def itemsInOrder : List ItemName :=
  .device :: ((List.finRange 8).map .zone ++ (List.finRange 48).map .sled)

/-- The item is pending. -/
def AttentionUnit.isPending (a : AttentionUnit) : ItemName → Bool
  | .device => a.device
  | .zone z => a.zones[z].isPending
  | .sled d => a.sleds[d].isPending

/-- The item is masked: a sled item by its station's mask, no other (R164). -/
def AttentionUnit.isMasked (a : AttentionUnit) : ItemName → Bool
  | .device => false
  | .zone _ => false
  | .sled d => a.masked d

/-- The first item pending and unmasked in the order of R166. -/
def AttentionUnit.first (a : AttentionUnit) : Option ItemName :=
  itemsInOrder.find? fun i => a.isPending i && !a.isMasked i

/-- An unmasked item is pending: what ATTENTION shows (R165). -/
def AttentionUnit.anyUnmasked (a : AttentionUnit) : Bool := itemsInOrder.any fun i => a.isPending i && !a.isMasked i

/-- A masked item is pending (R166). -/
def AttentionUnit.anyMasked (a : AttentionUnit) : Bool := itemsInOrder.any fun i => a.isPending i && a.isMasked i

/-- Remove every cause of an item (R166). -/
def AttentionUnit.clear (i : ItemName) (a : AttentionUnit) : AttentionUnit :=
  match i with
  | .device => { a with device := false }
  | .zone z => { a with zones := a.zones.set z ZoneItem.empty }
  | .sled d => { a with sleds := a.sleds.set d SledItem.empty }

/-- Change the attention unit and re-evaluate the ATTENTION output in the same event (R165); while reset is held the
output is released (R187). -/
def State.updAttention (f : AttentionUnit → AttentionUnit) (s : State) : State :=
  { s with attention := f s.attention, attentionPin := !s.resetHeld && (f s.attention).anyUnmasked }

/-- Raise POWERED_UP (R170). -/
def State.raisePoweredUp (s : State) : State := s.updAttention fun a => { a with device := true }

/-- Raise ZONE_SHORT of a zone (R62). -/
def State.raiseZoneShort (z : ZoneNo) (s : State) : State :=
  s.updAttention fun a => { a with zones := a.zones.set z { a.zones[z] with short := true } }

/-- Raise CURTAIL_CHANGE of a zone (R29). -/
def State.raiseCurtail (z : ZoneNo) (s : State) : State :=
  s.updAttention fun a => { a with zones := a.zones.set z { a.zones[z] with curtail := true } }

/-- Raise a cause in a sled's item (R162). -/
def State.raiseSled (d : SledNo) (c : SledCause) (s : State) : State :=
  s.updAttention fun a => { a with sleds := a.sleds.set d (a.sleds[d].add c) }

end Sys2Proof.Machine
end

