-- ==== Sys2Proof/Machine/Grant.lean ====
section
/-! DEFINITION. The grant dispatcher (chapter 4): its invocation, decreases, single and joint raises, the headroom
retry, floor refreshes, and the handling of one acknowledged pair. -/

namespace Sys2Proof.Machine

/-! ## Ramp (R71) -/

/-- The knee of an allotment (R2). -/
def Allotment.knee (r : Allotment) : Nat := r.floor + (r.ceiling - r.floor) / 2

/-- The next value of a raise: one step of 2R below the knee and R at or above it, not past the target (R71). -/
def Allotment.next (ramp : Nat) (r : Allotment) : Nat :=
  min r.target (r.sent + if r.sent < r.knee then 2 * ramp else ramp)

/-- The next value of a pair's member: its ramp step if its target is above its sent grant, else its sent grant
(R73). -/
def Allotment.pairNext (ramp : Nat) (r : Allotment) : Nat := if r.sent < r.target then r.next ramp else r.sent

/-- SETTLED or HELD: the latest entry is acknowledged and a raise may be tested (R71). -/
def GrantState.ready : GrantState → Bool
  | .settled | .held => true
  | .unlinked | .changing | .parkPending | .parking | .parked | .fallen => false

/-! ## Raises (R72, R73) -/

/-- The headroom test of an unpaired raise: X − x + next ≤ B (R72). -/
def headroom (z : Zone) (x next : Nat) : Bool := decide (z.x + next ≤ z.budget + x)

/-- The joint headroom test: X − x1 − x2 + next1 + next2 ≤ B (R73). -/
def jointHeadroom (z : Zone) (x1 x2 next1 next2 : Nat) : Bool :=
  decide (z.x + next1 + next2 ≤ z.budget + x1 + x2)

/-- The raise of an unpaired allotment: placed if the test passes, else HELD (R72). -/
def State.raiseSingle (h : Handle) (r : Allotment) (z : ZoneNo) (s : State) : State :=
  let next := r.next (s.zone z).ramp
  if headroom (s.zone z) r.exposure next then s.place h (.grant next) .changing else s.setGrant h .held

/-- A member of a pair whose joint test passed: raised to `next` where that is above its sent grant, else left
SETTLED (R73; log 15). -/
def State.raiseMember (h : Handle) (r : Allotment) (next : Nat) (s : State) : State :=
  if r.sent < next then s.place h (.grant next) .changing else s.setGrant h .settled

/-- A member of a pair whose joint test failed: HELD where its target is above its sent grant (R73). -/
def State.holdMember (h : Handle) (r : Allotment) (s : State) : State :=
  if r.sent < r.target then s.setGrant h .held else s

/-- The raise of a paired allotment `h`, whose record is `r` and whose partner is `p` (R73). -/
def State.raisePair (h : Handle) (r : Allotment) (p : Handle) (z : ZoneNo) (s : State) : State :=
  match s.allot p with
  | none => s.setGrant h .held
  | some q =>
    if !q.grant.ready || !s.reachable q.sled then s.setGrant h .held
    else
      let n1 := r.pairNext (s.zone z).ramp
      let n2 := q.pairNext (s.zone z).ramp
      if jointHeadroom (s.zone z) r.exposure q.exposure n1 n2 then
        if h < p then (s.raiseMember h r n1).raiseMember p q n2
        else (s.raiseMember p q n2).raiseMember h r n1
      else (s.holdMember h r).holdMember p q

/-- The raise test of R69's table: joint for a paired allotment (R73), single otherwise (R72). -/
def State.testRaise (h : Handle) (r : Allotment) (s : State) : State :=
  match s.zoneOf r with
  | none => s
  | some z =>
    match r.partner with
    | none => s.raiseSingle h r z
    | some p => s.raisePair h r p z

/-! ## The invocation (R69, R70) -/

/-- The dispatcher invoked for one allotment (R69). A RETIRING record, a record of a sled neither LINKED nor SILENT
and a record with 15 unacknowledged placements have their target stored and nothing placed (R66, R69). -/
def State.invoke (h : Handle) (s : State) : State :=
  match s.allot h with
  | none => s
  | some r =>
    if r.tag = .retiring || !s.mayPlace r then s
    else
      match r.grant with
      | .unlinked | .fallen | .parking | .parked => s
      | .changing => if r.target < r.sent then s.place h (.grant r.target) .changing else s
      | .parkPending => if r.target < r.sent then s.place h (.grant r.target) .parkPending else s
      | .settled | .held =>
        if r.target < r.sent then s.place h (.grant r.target) .changing
        else if r.target = r.sent then s.setGrant h .settled
        else s.testRaise h r

/-- The dispatcher invoked for a record whose floor an amendment changed (R75): a decrease carries the new floor
window; where there is none, a floor refresh at the sent grant is placed in CHANGING, SETTLED, HELD and PARK_PENDING
(log 12). -/
def State.invokeNewFloor (h : Handle) (s : State) : State :=
  match s.allot h with
  | none => s
  | some r =>
    if r.target < r.sent then s.invoke h
    else if r.tag = .retiring then s
    else
      match r.grant with
      | .changing | .settled | .held => s.place h (.grant r.sent) .changing
      | .parkPending => s.place h (.grant r.sent) .parkPending
      | .unlinked | .fallen | .parking | .parked => s

/-- The dispatcher invoked for a list of handles, in its order. -/
def State.invokeAll (l : List Handle) (s : State) : State := l.foldl (fun s h => s.invoke h) s

/-! ## The headroom retry (R74) -/

/-- Invoke the dispatcher for a record that is HELD. -/
def State.invokeHeld (h : Handle) (s : State) : State :=
  match s.allot h with
  | none => s
  | some r => if r.grant = .held then s.invoke h else s

/-- The visit of one record in the retry: a pair is tried at its lower handle, if either member is HELD (R74;
log 15). -/
def State.retryVisit (h : Handle) (s : State) : State :=
  match s.allot h with
  | none => s
  | some r =>
    match r.partner with
    | none => s.invokeHeld h
    | some p => if p < h then s else (s.invokeHeld h).invokeHeld p

/-- The headroom retry of a zone, in ascending handle order (R74). -/
def State.retry (z : ZoneNo) (s : State) : State := (s.zoneHandles z).foldl (fun s h => s.retryVisit h) s

/-- The retry of a zone where its exposure fell or its budget rose (R27, R32). -/
def State.retryIf (opened : Bool) (zo : Option ZoneNo) (s : State) : State :=
  match zo with
  | none => s
  | some z => if opened then s.retry z else s

/-- A record with its partner after it, if it has one (R151, R156). -/
def State.withPartner (s : State) (h : Handle) : List Handle :=
  match s.allot h with
  | none => [h]
  | some r => h :: r.partner.toList

/-! ## Direct actions (R79) -/

/-- The direct action on one record: its target set, the dispatcher invoked, its zone requested (R79). -/
def State.directAction (h : Handle) (target : Nat) (s : State) : State :=
  match s.allot h with
  | none => s
  | some r => ((s.setTarget h target).invoke h).requestNormalFor r.sled

/-! ## Unpark of a PARKED record (R157), as the acknowledgement of a PARK needs it (R158) -/

/-- Steps 1 to 3 of R157: the grant fields to idle, restatements 0, HELD, the zone requested. -/
def State.unparkParked (h : Handle) (s : State) : State :=
  match s.allot h with
  | none => s
  | some r =>
    (s.putAllot h { r.level r.idle with restatements := 0, grant := .held }).requestNormalFor r.sled

/-! ## Acknowledgements (R76 to R78) -/

/-- The fallback floor an acknowledged GRANT leaves: the floor kept with the latest entry (R77). -/
def Latest.floorKept (fallback : Nat) : Latest → Nat
  | .grant _ _ f => f
  | .none | .park | .release => fallback

/-- The record once its latest GRANT is acknowledged: step 1 of R77. -/
def Allotment.settle (r : Allotment) : Allotment :=
  { r.level r.sent with restatements := 0, unacked := 0, fallbackFloor := r.latest.floorKept r.fallbackFloor }

/-- Step 3 of R77: a held-back RELEASE, a waiting PARK, or HELD or SETTLED by the target. -/
def State.afterGrantAck (h : Handle) (r : Allotment) (s : State) : State :=
  if r.tag = .retiring then s.place h .release .changing
  else if r.grant = .parkPending then s.place h .park .parking
  else s.setGrant h (if r.sent < r.target then .held else .settled)

/-- Step 4 of R77: the dispatcher is invoked for the record, and the invocation of a paired record tests the pair, so
that a partner that waited as HELD is tested also where the record itself stands at its target (log 15). -/
def State.invokeAcked (h : Handle) (partner : Option Handle) (s : State) : State :=
  match partner with
  | none => s.invoke h
  | some p => (s.invoke h).invokeHeld p

/-- The acknowledgement of the latest GRANT of a record in CHANGING or PARK_PENDING (R77). -/
def State.ackGrant (h : Handle) (r : Allotment) (s : State) : State :=
  let s1 := s.putAllot h r.settle
  let s2 := (s1.afterGrantAck h r).invokeAcked h r.partner
  s2.retryIf (decide (r.settle.exposure < r.exposure)) (s.zoneOf r)

/-- The record once its PARK is acknowledged (R78). -/
def Allotment.parkDone (r : Allotment) : Allotment :=
  { r with grant := .parked, restatements := 0, unacked := 0, wakeAfter := false }

/-- The acknowledgement of a PARK (R78): the park completes, a set wake-after-park flag is read and the record
unparked before the retry that the fall of exposure starts (R158). -/
def State.ackPark (h : Handle) (r : Allotment) (s : State) : State :=
  let s1 := s.putAllot h r.parkDone
  let s2 := if r.wakeAfter then (s1.unparkParked h).invoke h else s1
  s2.retryIf (decide (r.parkDone.exposure < r.exposure)) (s.zoneOf r)

/-- The acknowledgement of a RETIRING record's RELEASE: the record is freed and the retry follows if X fell
(R19, R20, R78). -/
def State.ackRelease (h : Handle) (r : Allotment) (s : State) : State :=
  (s.freeAllot h).retryIf (decide (0 < r.exposure)) (s.zoneOf r)

/-- A pair that matches the latest sequence, handled by the record's state (R76 to R78). -/
def State.acknowledge (h : Handle) (r : Allotment) (s : State) : State :=
  match r.grant, r.latest with
  | .changing, .release => if r.tag = .retiring then s.ackRelease h r else s
  | .changing, .grant .. => s.ackGrant h r
  | .parkPending, .grant .. => s.ackGrant h r
  | .parking, .park => s.ackPark h r
  | _, _ => s

/-- One pair of an ACK of sled `d` (R76): ignored unless the sled is LINKED or SILENT, the handle is in its list and
the sequence is the record's latest. -/
def State.ackPair (d : SledNo) (h : Handle) (q : BitVec 4) (s : State) : State :=
  if s.reachable d && decide (h ∈ (s.sled d).handles) then
    match s.allot h with
    | none => s
    | some r => if r.sequence = q then s.acknowledge h r else s
  else s

end Sys2Proof.Machine
end

