-- ==== Sys2Proof/Machine/Apportion.lean ====
section
/-! DEFINITION. The apportioner (chapter 3): the choice of a zone, the take and its snapshot, Stages 2 to 5, and the
completion. -/

namespace Sys2Proof.Machine

/-! ## Stage 2: bounds (R51, R52) -/

/-- The derate factor of a thermal state; CRITICAL uses none (R51, R105). -/
def derateFor (warm hot : Nat) : Thermal → Nat
  | .normal => 100
  | .warm => warm
  | .hot => hot
  | .critical => 0

/-- The effective ceiling by derate: never below the floor, truncated (R51). -/
def effectiveCeiling (floor ceiling p : Nat) : Nat := max floor (ceiling * p / 100)

/-- PARK_PENDING, PARKING or PARKED (section 8). -/
def GrantState.inPark : GrantState → Bool
  | .parkPending | .parking | .parked => true
  | .unlinked | .changing | .settled | .held | .fallen => false

/-- FALLEN or UNLINKED. -/
def GrantState.offLink : GrantState → Bool
  | .unlinked | .fallen => true
  | .changing | .settled | .held | .parkPending | .parking | .parked => false

/-- The first two rows of R52: the allotment's effective floor and want are idle. -/
def Snap.idles (e : Snap) : Bool := e.tag == .retiring || e.grant.inPark || e.eff == .critical

/-- The effective floor fe of an allotment of the snapshot (R52). -/
def Snap.effFloor (e : Snap) : Nat := if e.idles then e.idle else e.floor

/-- The want of an allotment of the snapshot, with the snapshot's derates (R52). An absent demand counts as floor. -/
def Snap.want (warm hot : Nat) (e : Snap) : Nat :=
  if e.idles then e.idle
  else if e.grant.offLink then e.floor
  else max e.floor (min (e.demand.getD e.floor) (effectiveCeiling e.floor e.ceiling (derateFor warm hot e.eff)))

/-! ## Stage 3: the short check (R53) -/

/-- Σ fe of the snapshot. -/
def Service.floors (v : Service) : Nat := (v.snaps.map Snap.effFloor).sum

/-- Σ idle of the snapshot. -/
def Service.idles (v : Service) : Nat := (v.snaps.map (·.idle)).sum

/-- The zone is short: F > B_snapshot (R53). -/
def Service.isShort (v : Service) : Bool := decide (v.budget < v.floors)

/-- The target of an allotment of a short zone (R53). -/
def Service.shortTarget (v : Service) (e : Snap) : Nat :=
  if v.idles < v.budget then e.idle + (e.effFloor - e.idle) * (v.budget - v.idles) / (v.floors - v.idles)
  else e.idle

/-! ## Stage 4: weighted surplus (R54 to R56) -/

/-- An allotment's share during the rounds: its weight, its remaining need and the amount received (R54). -/
structure Share where
  weight : Nat
  need : Nat
  received : Nat
deriving DecidableEq, Repr

/-- Give an amount to a share. -/
def Share.give (n : Nat) (a : Share) : Share := { a with need := a.need - n, received := a.received + n }

/-- Unsatisfied: the remaining need is above 0 (R54). -/
def Share.unsatisfied (a : Share) : Bool := decide (0 < a.need)

/-- The weight sum W of the unsatisfied (R55). -/
def weightSum (l : List Share) : Nat := ((l.filter Share.unsatisfied).map (·.weight)).sum

/-- Satisfied in a round of quotient q: unsatisfied with a remaining need of at most q × weight (R55). -/
def Share.satisfiedBy (q : Nat) (a : Share) : Bool := a.unsatisfied && decide (a.need ≤ q * a.weight)

/-- The remainder pass (R56): each unsatisfied allotment in turn is given the smallest of its weight, the remainder
still left and its remaining need. -/
def remainderPass : Nat → List Share → List Share
  | _, [] => []
  | r, a :: rest =>
    let n := if a.unsatisfied then min a.weight (min r a.need) else 0
    a.give n :: remainderPass (r - n) rest

/-- The rounds of R55, at most `fuel` of them; there are never more rounds than allotments. -/
def surplusRounds : Nat → Nat → List Share → List Share
  | 0, _, l => l
  | fuel + 1, left, l =>
    let w := weightSum l
    if w = 0 then l
    else
      let q := left / w
      if l.any (Share.satisfiedBy q) then
        let handed := ((l.filter (Share.satisfiedBy q)).map (·.need)).sum
        surplusRounds fuel (left - handed) (l.map fun a => if a.satisfiedBy q then a.give a.need else a)
      else
        remainderPass (left - q * w) (l.map fun a => if a.unsatisfied then a.give (q * a.weight) else a)

/-- The amounts received in Stage 4 for needs and weights in ascending handle order, with surplus S (R54). -/
def surplusShares (surplus : Nat) (l : List Share) : List Share :=
  if (l.map (·.need)).sum ≤ surplus then l.map fun a => a.give a.need
  else surplusRounds (l.length + 1) surplus l

/-- The share an allotment of the snapshot starts with: its weight and its need e = want − fe (R54). -/
def Service.startShare (v : Service) (e : Snap) : Share :=
  ⟨e.weight, e.want v.warmDerate v.hotDerate - e.effFloor, 0⟩

/-- The targets as Stage 3 or Stage 4 leaves them, with their snapshot records in ascending handle order. -/
def Service.levelled (v : Service) : List (Snap × Nat) :=
  if v.isShort then v.snaps.map fun e => (e, v.shortTarget e)
  else
    (v.snaps.zip (surplusShares (v.budget - v.floors) (v.snaps.map v.startShare))).map fun p =>
      (p.1, p.1.effFloor + p.2.received)

/-! ## Stage 5: pairs (R57) -/

/-- The target of the partner of `e`, where both are in the snapshot and each names the other. -/
def partnerTarget (l : List (Snap × Nat)) (e : Snap) : Option Nat :=
  (l.find? fun p => e.partner == some p.1.handle && p.1.partner == some e.handle).map (·.2)

/-- Both targets of a pair become the smaller of the two (R57). -/
def pairMinimum (l : List (Snap × Nat)) : List (Snap × Nat) :=
  l.map fun p =>
    match partnerTarget l p.1 with
    | none => p
    | some t => (p.1, min p.2 t)

/-- The targets of a recompute: Stages 2 to 5. -/
def Service.targets (v : Service) : List (Snap × Nat) := pairMinimum v.levelled

/-! ## Choosing and taking a zone (R46, R47, R49) -/

/-- The phase after `k` positions beyond a phase, wrapping from 15 to 0. -/
def phaseAfter (p : Fin 16) (k : Nat) : Fin 16 := ⟨(p.val + 1 + k) % 16, by omega⟩

/-- The pointer walk (R47): the first phase after the pointer, 16 looked at, whose zone has its normal request set. -/
def State.pointerWalk (s : State) : Option (Fin 16) :=
  ((List.range 16).map (phaseAfter s.pointer)).find? fun p => (s.zone s.table[p]).normalReq

/-- The zone the apportioner chooses and the pointer it leaves (R46). -/
def State.chooseZone (s : State) : Option (ZoneNo × Fin 16) :=
  match (List.finRange 8).find? fun z => (s.zone z).urgentReq with
  | some z => some (z, s.pointer)
  | none =>
    match s.pointerWalk with
    | some p => some (s.table[p], p)
    | none => ((List.finRange 8).find? fun z => (s.zone z).normalReq).map fun z => (z, s.pointer)

/-- What the snapshot holds of one record (R49). -/
def State.snapOf (s : State) (h : Handle) : Option Snap :=
  (s.allot h).map fun r =>
    { handle := h, tag := r.tag, idle := r.idle, peak := r.peak, floor := r.floor, ceiling := r.ceiling
      weight := r.weight, partner := r.partner, demand := r.demand, grant := r.grant, eff := (s.sled r.sled).eff }

/-- Set or clear the snapshot mark of a record. -/
def State.setMark (m : Bool) (h : Handle) (s : State) : State :=
  match s.allot h with
  | none => s
  | some r => s.setAllot h (some { r with mark := m })

/-- The take of a zone (R49): both requests cleared, busy with the zone in service, the marks set, the snapshot. -/
def State.takeZone (z : ZoneNo) (s : State) : State :=
  let s1 := s.updZone z fun v => { v with normalReq := false, urgentReq := false }
  let s2 := (s1.zoneHandles z).foldl (fun s h => s.setMark true h) s1
  { s2 with
    service := some
      { zone := z, budget := (s2.zone z).budget, warmDerate := s2.assessor.warmDerate
        hotDerate := s2.assessor.hotDerate, snaps := (s2.zoneHandles z).filterMap s2.snapOf } }

/-- The apportioner, when free, chooses and takes a zone if any request is pending: the last part of an event that
set a request (R45, R46). -/
def State.serveRequests (s : State) : State :=
  if s.service.isSome then s
  else
    match s.chooseZone with
    | none => s
    | some (z, p) => ({ s with pointer := p }).takeZone z

/-! ## Completion (R59 to R62) -/

/-- The present ce of a record: by the derates in force and its sled's effective thermal state now, idle if the sled
is CRITICAL (R51, R60). -/
def State.presentCe (s : State) (r : Allotment) : Nat :=
  if (s.sled r.sled).eff = .critical then r.idle
  else effectiveCeiling r.floor r.ceiling
    (derateFor s.assessor.warmDerate s.assessor.hotDerate (s.sled r.sled).eff)

/-- Whether a computed target is applied to a record (R59): LIVE, carrying its mark, and in no park state. -/
def Allotment.takesTarget (r : Allotment) : Bool := r.tag == .live && r.mark && !r.grant.inPark

/-- The target a completion applies to a handle, none where it is skipped: min(computed, present ce, present ceiling)
(R59, R60). -/
def State.appliedTarget (s : State) (p : Snap × Nat) : Option Nat :=
  match s.allot p.1.handle with
  | none => none
  | some r => if r.takesTarget then some (min p.2 (min (s.presentCe r) r.ceiling)) else none

/-- One computed target met with the live record (R59 to R61). -/
def State.applyTarget (p : Snap × Nat) (s : State) : State :=
  match s.appliedTarget p with
  | none => s
  | some t => s.modAllot p.1.handle fun r => { r with target := t, demandUsed := p.1.demand }

/-- Σ applied targets (R62). -/
def State.appliedSum (l : List (Snap × Nat)) (s : State) : Nat := (l.filterMap s.appliedTarget).sum

/-- The completion event of the recompute in service (R59 to R62). -/
def State.complete (v : Service) (s : State) : State :=
  let l := v.targets
  let s1 := l.foldl (fun s p => s.applyTarget p) s
  let was := (s1.zone v.zone).short
  let s2 := s1.updZone v.zone fun r => { r with short := v.isShort, spare := v.budget - s.appliedSum l }
  let s3 := if v.isShort && !was then s2.raiseZoneShort v.zone else s2
  let s4 := l.foldl (fun s p => s.setMark false p.1.handle) s3
  let s5 := { s4 with service := none }
  (s5.invokeAll (s5.zoneHandles v.zone)).serveRequests

/-- RECOMPUTE_COMPLETION (R62). While the apportioner is free there is no recompute to complete (log 3). -/
def recomputeCompletion (s : State) : State :=
  match s.service with
  | none => s
  | some v => s.complete v

/-- The meaning of RECOMPUTE_COMPLETION. -/
def execRecomputeCompletion (s : State) : Host.Outcome State Fault Refusal := .next (unlessReset recomputeCompletion s)

end Sys2Proof.Machine
end

