-- ==== Sys2Proof/Machine/Format.lean ====
section
/-! DEFINITION. The bytes of chapter 11 that go OUT of the block: codes, downlink frames, responses and the images of
the read commands. -/

namespace Sys2Proof.Machine

/-- The low byte of a number. -/
def byteOf (n : Nat) : Byte := BitVec.ofNat 8 n

/-- Two bytes of a number, most significant first. -/
def twoBytes (n : Nat) : List Byte := [byteOf (n / 256), byteOf n]

/-- Three bytes of a number, most significant first. -/
def threeBytes (n : Nat) : List Byte := [byteOf (n / 65536), byteOf (n / 256), byteOf n]

/-- A byte of flags, bit 0 first. DESIGN CHOICE (log 25): the bits above the flags that sections 11.6 and 11.7 name are
sent 0; the manual does not say what they are. -/
def flagByte (bits : List Bool) : Byte := byteOf (bits.foldr (fun b n => 2 * n + b.toNat) 0)

/-! ## Codes (section 11.6) -/

/-- The code of a fault class. -/
def FaultClass.code : FaultClass → Byte
  | .format => 0x01#8
  | .state => 0x02#8
  | .capacity => 0x03#8
  | .conflict => 0x04#8
  | .range => 0x05#8
  | .order => 0x06#8
  | .contract => 0x07#8

/-- The code of a detail: numbered within its class from the first code, in the order of section 10.3. -/
def Detail.code : Detail → Byte
  | .badLength => 0x01#8
  | .badCheck => 0x02#8
  | .badCommand => 0x03#8
  | .badNumber => 0x04#8
  | .handleFree => 0x10#8
  | .retiring => 0x11#8
  | .sledUnplaced => 0x12#8
  | .hasAllotments => 0x13#8
  | .tableFull => 0x20#8
  | .maskEmpty => 0x30#8
  | .maskOutside => 0x31#8
  | .maskOverlap => 0x32#8
  | .sameHandle => 0x33#8
  | .paired => 0x34#8
  | .sameSled => 0x35#8
  | .zoneDiffers => 0x36#8
  | .contractDiffers => 0x37#8
  | .parkDiffers => 0x38#8
  | .selfUpstream => 0x39#8
  | .upstreamUnplaced => 0x3A#8
  | .cycle => 0x3B#8
  | .tooDeep => 0x3C#8
  | .isUpstream => 0x3D#8
  | .idle => 0x50#8
  | .peak => 0x51#8
  | .floor => 0x52#8
  | .ceiling => 0x53#8
  | .weight => 0x54#8
  | .percent => 0x55#8
  | .cb => 0x56#8
  | .ob => 0x57#8
  | .kb => 0x58#8
  | .ramp => 0x59#8
  | .threshold => 0x5A#8
  | .derate => 0x5B#8
  | .channels => 0x5C#8
  | .interval => 0x5D#8
  | .peakNotAboveIdle => 0x60#8
  | .floorBelowIdle => 0x61#8
  | .floorAbovePeak => 0x62#8
  | .ceilingBelowFloor => 0x63#8
  | .ceilingAbovePeak => 0x64#8
  | .thresholdOrder => 0x65#8
  | .noRoom => 0x70#8
  | .belowFloors => 0x71#8

/-- Filler byte on MDO (section 11.5). -/
def filler : Byte := 0xFF#8

/-- NOT_READY byte on MDO (section 11.5). -/
def notReady : Byte := 0xEE#8

/-! ## Downlink frames (section 11.3) -/

/-- The bytes of an entry. -/
def Entry.bytes (e : Entry) : List Byte :=
  let head := [byteOf e.handle.val, byteOf (e.sequence.toNat * 16 + e.mask.toNat)]
  match e.kind with
  | .grant w wf => head ++ [0x01#8, byteOf w, byteOf wf]
  | .park => head ++ [0x02#8]
  | .release => head ++ [0x03#8]

/-- The bytes of a downlink frame sent with an interval: address, kind and count, interval, park mask of a WELCOME,
entries, check byte over the frame as it stands (R189). -/
def Frame.bytes (f : Frame) (interval : Nat) : List Byte :=
  let body := f.entries.flatMap Entry.bytes
  let address := addressByte false f.sled
  withCheck <|
    match f.kind with
    | .welcome m => [address, byteOf (0x10 + f.entries.length), byteOf interval, m.setWidth 8] ++ body
    | .grant => [address, byteOf (0x20 + f.entries.length), byteOf interval] ++ body

/-! ## Responses (section 11.6) -/

/-- Result, qualifier and, for a refusal, detail. -/
def Result.bytes : Result → List Byte
  | .done already => [0x00#8, flagByte [already]]
  | .adjusted a => [0x01#8, flagByte [a.range, a.order, a.contract]]
  | .refused d => [0x02#8, d.faultClass.code, d.code]

/-- The bytes of a response: code, length with the check byte included, result, payload, check byte (R192). -/
def Response.bytes (r : Response) : List Byte :=
  let body := r.result.bytes ++ r.payload
  withCheck (r.code :: byteOf (body.length + 3) :: body)

/-! ## Images (section 11.7) -/

/-- Grant state code. -/
def GrantState.code : GrantState → Nat
  | .unlinked => 0
  | .changing => 1
  | .settled => 2
  | .held => 3
  | .parkPending => 4
  | .parking => 5
  | .parked => 6
  | .fallen => 7

/-- Kind code of the latest entry. -/
def Latest.code : Latest → Nat
  | .none => 0
  | .grant .. => 1
  | .park => 2
  | .release => 3

/-- Link state code. -/
def Link.code : Link → Nat
  | .unplaced => 0
  | .idle => 1
  | .linked => 2
  | .silent => 3
  | .lost => 4

/-- Thermal states in their order, and their codes (section 5.1). -/
def Thermal.rank : Thermal → Nat
  | .normal => 0
  | .warm => 1
  | .hot => 2
  | .critical => 3

/-- Relation class of demand with sent grant (R21): 0 UNORDERED, 1 ABOVE, 2 BELOW, 3 EQUAL. -/
def relationCode (link : Link) (r : Allotment) : Nat :=
  match r.demand, link, r.grant with
  | some d, .linked, .changing | some d, .linked, .settled | some d, .linked, .held
  | some d, .linked, .parkPending => if r.sent < d then 1 else if d < r.sent then 2 else 3
  | _, _, _ => 0

/-- The record image of LOOKUP: 32 bytes. The bits that section 11.7 does not name, bits 7 to 4 of the channel mask, 7 to 5
of the flags and 7 and 6 of byte 30, are sent 0 (log 25). -/
def recordImage (h : Handle) (link : Link) (r : Allotment) : List Byte :=
  [byteOf h.val, match r.tag with | .live => 0x01#8 | .retiring => 0x02#8, r.tenant, byteOf r.sled.val,
    r.mask.setWidth 8,
    flagByte [r.wake, r.partner.isSome, r.demand.isSome, r.demandUsed.isSome, r.wakeAfter],
    match r.partner with | some p => byteOf p.val | none => 0x00#8]
    ++ twoBytes r.idle ++ twoBytes r.peak ++ twoBytes r.floor ++ twoBytes r.ceiling ++ [byteOf r.weight]
    ++ twoBytes (r.demand.getD 0) ++ twoBytes (r.demandUsed.getD 0)
    ++ twoBytes r.target ++ twoBytes r.sent ++ twoBytes r.acked ++ twoBytes r.highest ++ twoBytes r.exposure
    ++ [byteOf (r.sequence.toNat + 16 * r.latest.code),
      byteOf (r.grant.code + 8 * r.restatements + 64 * relationCode link r)]

/-- The place `i` of a sled's handle list: 0xFF where unused. -/
def handlePlace (l : List Handle) (i : Nat) : Byte :=
  match l[i]? with
  | some h => byteOf h.val
  | none => 0xFF#8

/-- The place `i` of the last report: 0x00 bytes where there is no triple (section 11.7; bits 7 to 1 of the flags byte,
log 25). -/
def triplePlace (l : List Triple) (i : Nat) : List Byte :=
  match l[i]? with
  | some t => tripleBytes t
  | none => [0x00#8, 0x00#8, 0x00#8]

/-- The sled image of READ_SLED: 27 bytes. -/
def sledImage (d : SledNo) (r : Sled) : List Byte :=
  let upstream := r.placement.bind (·.upstream)
  let triples := r.report.getD []
  [byteOf d.val, flagByte [r.placement.isSome, upstream.isSome, r.report.isSome, r.elapsed, r.answered],
    match r.placement with | some p => byteOf p.zone.val | none => 0xFF#8,
    match r.placement with | some p => byteOf p.channels | none => 0xFF#8,
    match upstream with | some u => byteOf u.val | none => 0xFF#8,
    byteOf r.link.code, byteOf r.silence, byteOf r.fallbacks, byteOf r.own.rank, byteOf r.eff.rank,
    byteOf r.handles.length, handlePlace r.handles 0, handlePlace r.handles 1, handlePlace r.handles 2,
    handlePlace r.handles 3]
    ++ triplePlace triples 0 ++ triplePlace triples 1 ++ triplePlace triples 2 ++ triplePlace triples 3

/-- The zone image of READ_ZONE: 20 bytes. -/
def zoneImage (z : ZoneNo) (inService : Bool) (r : Zone) : List Byte :=
  [byteOf z.val] ++ twoBytes r.cb ++ twoBytes r.ob ++ twoBytes r.kb ++ [byteOf r.ramp, byteOf r.deadband,
    flagByte [r.taken, r.short, r.normalReq, r.urgentReq, inService]]
    ++ twoBytes r.budget ++ twoBytes r.floorSum ++ threeBytes r.x ++ twoBytes r.spare ++ [byteOf r.count]

/-- The causes of an item as the attention image carries them. -/
def AttentionUnit.causes (a : AttentionUnit) : ItemName → Byte
  | .device => flagByte [a.device]
  | .zone z => flagByte [a.zones[z].short, a.zones[z].curtail]
  | .sled d =>
    flagByte [a.sleds[d].warm, a.sleds[d].hot, a.sleds[d].critical, a.sleds[d].lost, a.sleds[d].refused,
      a.sleds[d].sensor]

/-- The attention image of TAKE_ATTENTION: the item taken from `a`, with the two pending flags of the unit as it is
left, `after` (R166). -/
def attentionImage (item : Option ItemName) (a after : AttentionUnit) : List Byte :=
  let tail := [flagByte [after.anyUnmasked, after.anyMasked]]
  match item with
  | none => [0x00#8, 0x00#8, 0x00#8] ++ tail
  | some .device => [0x01#8, 0x00#8, a.causes .device] ++ tail
  | some (.zone z) => [0x02#8, byteOf z.val, a.causes (.zone z)] ++ tail
  | some (.sled d) => [0x03#8, byteOf d.val, a.causes (.sled d)] ++ tail

/-- The fault image of READ_FAULTS: 6 bytes. -/
def faultImage (f : StickyFlags) (r : Option RefusedRecord) : List Byte :=
  [flagByte [f.format, f.state, f.capacity, f.conflict, f.range, f.order, f.contract],
    flagByte [f.responseLost, f.writeWhileBusy, r.isSome, (r.bind (·.parameter)).isSome]]
    ++
    match r with
    | none => [0x00#8, 0x00#8, 0x00#8, 0x00#8]
    | some r => [r.command, r.parameter.getD 0x00#8, r.detail.faultClass.code, r.detail.code]

end Sys2Proof.Machine
end

