-- ==== Sys2Proof/Machine/Operands.lean ====
section
/-! DEFINITION. The operand forms of the management commands: numbers and codes (FORMAT, R183), the RANGE check and
its adjustment (R8, R39, R106, R111, R144), the ORDER steps of R8 and the CONTRACT check of R9 and R12. A check
answers the values it leaves and whether it adjusted, or the detail it refuses with. -/

namespace Sys2Proof.Machine

/-! ## Numbers and codes (R183) -/

/-- A handle byte: above 159 names no handle. -/
def handleOf (b : Byte) : Option Handle := if h : b.toNat < 160 then some ⟨b.toNat, h⟩ else none

/-- A sled byte: above 47 names no sled. -/
def sledOf (b : Byte) : Option SledNo := if h : b.toNat < 48 then some ⟨b.toNat, h⟩ else none

/-- A zone byte: above 7 names no zone. -/
def zoneNoOf (b : Byte) : Option ZoneNo := if h : b.toNat < 8 then some ⟨b.toNat, h⟩ else none

/-- A station byte: above 5 names no station. -/
def stationNoOf (b : Byte) : Option StationNo := if h : b.toNat < 6 then some ⟨b.toNat, h⟩ else none

/-- A two-valued code: 0x00 no, refuse or handle; 0x01 yes, adjust or sled (section 11.5). -/
def codeOf (b : Byte) : Option Bool := if b = 0x00#8 then some false else if b = 0x01#8 then some true else none

/-- The code for none in the zone and upstream fields of PLACE_SLED (section 11.5). -/
def noneCode : Byte := 0xFF#8

/-- A field that is a number or the code for none: the outer none is a fault, the inner one the code. -/
def orNone {α : Type} (f : Byte → Option α) (b : Byte) : Option (Option α) :=
  if b = noneCode then some none else (f b).map some

/-- A channel mask byte names only channels 0 to 3 (R191). -/
def maskOf (b : Byte) : Option ChannelMask := if b.toNat < 16 then some (b.setWidth 4) else none

/-- A number or code that must be there, or the FORMAT refusal BAD_NUMBER (R183). -/
def needNumber {α : Type} (o : Option α) : Except Detail α :=
  match o with
  | none => .error .badNumber
  | some a => .ok a

/-- A condition that must hold, or a refusal. -/
def need (holds : Bool) (d : Detail) : Except Detail Unit := if holds then .ok () else .error d

/-! ## RANGE -/

/-- The RANGE check of one quantity against `lo` to `hi` (R8): adjust moves it to the bound it passes. -/
def rangeCheck (adjust : Bool) (lo hi : Nat) (d : Detail) (v : Nat) : Except Detail (Nat × Bool) :=
  if lo ≤ v ∧ v ≤ hi then .ok (v, false)
  else if adjust then .ok (if v < lo then lo else hi, true)
  else .error d

/-- The RANGE check of a field that is checked only where a command selects it (R12). -/
def rangeCheckIf (selected adjust : Bool) (lo hi : Nat) (d : Detail) (v present : Nat) : Except Detail (Nat × Bool) :=
  if selected then rangeCheck adjust lo hi d v else .ok (present, false)

/-! ## ORDER -/

/-- One step of the ORDER check (R8): where its condition is found, adjust takes the fixed value and refuse gives
the detail. -/
def orderStep (adjust found : Bool) (d : Detail) (fixed v : Nat) : Except Detail (Nat × Bool) :=
  if found then (if adjust then .ok (fixed, true) else .error d) else .ok (v, false)

/-- The five ORDER steps of R8 on idle, peak, floor and ceiling, each on the result of the one before. Answers floor,
ceiling and whether anything was adjusted. -/
def orderCheck (adjust : Bool) (idle peak floor ceiling : Nat) : Except Detail (Nat × Nat × Bool) := do
  need (decide (idle < peak)) .peakNotAboveIdle
  let (f1, a1) ← orderStep adjust (decide (floor < idle)) .floorBelowIdle idle floor
  let (f2, a2) ← orderStep adjust (decide (peak < f1)) .floorAbovePeak peak f1
  let (c1, a3) ← orderStep adjust (decide (ceiling < f2)) .ceilingBelowFloor f2 ceiling
  let (c2, a4) ← orderStep adjust (decide (peak < c1)) .ceilingAbovePeak peak c1
  return (f2, c2, a1 || a2 || a3 || a4)

/-! ## CONTRACT -/

/-- The CONTRACT check of a floor against the room `given - taken` of its zone (R9, R12): refuse gives NO_ROOM, adjust
lowers the floor to the room where that is at least idle and gives NO_ROOM where it is not (R179). Written with sums,
so that it is exact whatever the zone holds. -/
def contractCheck (adjust : Bool) (idle floor given taken : Nat) : Except Detail (Nat × Bool) :=
  if taken + floor ≤ given then .ok (floor, false)
  else if adjust ∧ taken + idle ≤ given then .ok (given - taken, true)
  else .error .noRoom

/-- The CONTRACT check of a floor that two records of a pair take together (R12): the room is
`(given - taken) / 2`, truncated. -/
def contractCheckPaired (adjust : Bool) (idle floor given taken : Nat) : Except Detail (Nat × Bool) :=
  if taken + 2 * floor ≤ given then .ok (floor, false)
  else if adjust ∧ taken + 2 * idle ≤ given then .ok ((given - taken) / 2, true)
  else .error .noRoom

end Sys2Proof.Machine
end

