-- ==== Sys2Proof/Machine/Port.lean ====
section
/-! DEFINITION. The management port (chapter 10): the take of a command frame, the response, and the port's own
events. -/

namespace Sys2Proof.Machine

/-! ## The take (R173, R177, R178, R180, R181) -/

/-- What a command's checks and application come to (R177): refused with one detail and nothing applied, or applied
to give a state, with a payload. -/
inductive Verdict where
  | refused (d : Detail)
  | done (already : Bool) (payload : List Byte) (s : State)
  | adjusted (classes : Adjusted) (payload : List Byte) (s : State)

/-- DONE, or ADJUSTED where some class was adjusted (R177). -/
def verdictOf (a : Adjusted) (payload : List Byte) (s : State) : Verdict :=
  if a.any then .adjusted a payload s else .done false payload s

/-- A verdict from checks that may refuse. -/
def Verdict.ofChecks {α : Type} (c : Except Detail α) (f : α → Verdict) : Verdict :=
  match c with
  | .error d => .refused d
  | .ok a => f a

/-- What the port holds of a frame once these bytes of it have come through a WRITE (R172, R191): the first 40 in the
command buffer, how many there were, the running CRC-8 over all but the latest, and the latest. -/
def Port.receive (bytes : List Byte) (p : Port) : Port :=
  { p with
    command := bytes.take commandBufferSize
    received := bytes.length
    crc := crc8 bytes.dropLast
    latest := bytes.getLast? }

/-- Steps 1 and 2 of the take (R173): an unread response is discarded with RESPONSE_LOST, the port becomes RESPONDING
and READY inactive. The port has received the whole frame, and MDO carried filler through the transaction (R172). -/
def State.beginTake (frame : List Byte) (s : State) : State :=
  let lost := s.port.response.isSome && !s.port.responseRead
  { s with
    port :=
      { s.port.receive frame with
        state := .responding
        response := if lost then none else s.port.response
        flags := { s.port.flags with responseLost := s.port.flags.responseLost || lost } }
    readyPin := false
    mdo := List.replicate frame.length filler }

/-- Step 5 of the take: the content of the response is fixed (R173). -/
def State.respond (r : Response) (s : State) : State := s.updPort fun p => { p with building := some r }

/-- A refusal: nothing applied, the class flag set, the last refused record written, the response REFUSED (R178,
R180, R181). -/
def State.refuse (code : Byte) (parameter : Option Byte) (d : Detail) (s : State) : State :=
  (s.updPort fun p =>
    { p with flags := p.flags.raise d.faultClass, lastRefused := some ⟨code, parameter, d⟩ }).respond
    ⟨code, .refused d, []⟩

/-- The end of a take by its verdict: of a refusal nothing is applied; an ADJUSTED result sets the flag of every
class named in it (R180). -/
def State.conclude (code : Byte) (parameter : Option Byte) (s : State) : Verdict → State
  | .refused d => s.refuse code parameter d
  | .done already payload t => t.respond ⟨code, .done already, payload⟩
  | .adjusted a payload t =>
    (t.updPort fun p => { p with flags := p.flags.raiseAdjusted a }).respond ⟨code, .adjusted a, payload⟩

/-- The take of a frame whose checks and application are `judge` (R173). -/
def State.takeFrame (code : Byte) (parameter : Option Byte) (frame : List Byte) (judge : State → Verdict)
    (s : State) : State :=
  (s.beginTake frame).conclude code parameter (judge (s.beginTake frame))

/-- A write while busy: its bytes are not stored, MDO shifts filler, and WRITE_WHILE_BUSY is set (R176). -/
def State.writeBusy (clocked : Nat) (s : State) : State :=
  { s with
    port := { s.port with flags := { s.port.flags with writeWhileBusy := true } }
    mdo := List.replicate clocked filler }

/-- A management command by its port (R172, R173, R176): taken, unless the port is RESPONDING, where its transaction
is a write while busy; while reset is held the port takes no transaction (R187). From IDLE the row stands for the
whole WRITE transaction (log 4). -/
def takeCommand (code : Byte) (parameters : List Byte) (judge : State → Verdict) (s : State) : State :=
  let frame := withCheck (code :: parameters)
  unlessReset
    (fun s =>
      match s.port.state with
      | .responding => s.writeBusy frame.length
      | .idle | .taking => s.takeFrame code parameters.head? frame judge)
    s

/-! ## Port events -/

/-- How a transaction is judged, by its first complete byte on MDI (R172). -/
inductive Transaction where
  | write
  | read
  | ignored
deriving DecidableEq, Repr

/-- The judgement of the first complete byte on MDI: the WRITE code, the READ code, or neither; a transaction that ends
before its first byte is complete is ignored (R172, section 11.5). -/
def judgeTransaction : List Byte → Transaction
  | [] => .ignored
  | code :: _ => if code = writeCode then .write else if code = readCode then .read else .ignored

/-- A WRITE transaction begins, the bytes given having come after its code (R172): from IDLE the port becomes TAKING,
clears the command buffer and stores them, and MDO shifts filler. While RESPONDING it is a write while busy: its bytes
are not stored, MDO shifts filler, and its effect comes at its end (R176). While TAKING a transaction is in progress and
none can begin (log 3). -/
def beginWrite (bytes : List Byte) (s : State) : State :=
  match s.port.state with
  | .idle =>
    { s with
      port := { s.port.receive bytes with state := .taking }
      mdo := List.replicate bytes.length filler }
  | .taking => s
  | .responding => { s with mdo := List.replicate bytes.length filler }

/-- RESPONSE_READY (R174): the response is written into the buffer, response read becomes no, the port IDLE and READY
active. With no response in building there is nothing to make ready (log 3). -/
def responseReady (s : State) : State :=
  match s.port.state, s.port.building with
  | .responding, some r =>
    { s with
      port := { s.port with state := .idle, response := some r, building := none, responseRead := false }
      readyPin := true }
  | _, _ => s

/-- The meaning of RESPONSE_READY. -/
def execResponseReady (s : State) : Host.Outcome State Fault Refusal := .next (unlessReset responseReady s)

/-- The bytes of the response buffer. -/
def Port.responseBytes (p : Port) : List Byte :=
  match p.response with
  | some r => r.bytes
  | none => []

/-- A READ transaction of `n` bytes clocked after its code (R175): the response from its first byte, then filler, and
response read once its last byte has been shifted out; while RESPONDING, NOT_READY and then filler, changing
nothing. -/
def readTransaction (n : Nat) (s : State) : State :=
  match s.port.state with
  | .responding => { s with mdo := (notReady :: List.replicate n filler).take n }
  | .idle | .taking =>
    let bytes := s.port.responseBytes
    { s with
      port := { s.port with responseRead := s.port.responseRead || decide (bytes.length ≤ n) }
      mdo := (bytes ++ List.replicate n filler).take n }

/-- A transaction, given by the complete bytes that have come on MDI and judged by the first of them (R172): a WRITE
does `write` with the bytes that follow, a READ clocks as many bytes as follow, whatever they are (R175), and any other
transaction is ignored and changes nothing. -/
def runTransaction (write : List Byte → State → State) (mdi : List Byte) (s : State) : State :=
  match judgeTransaction mdi with
  | .write => write mdi.tail s
  | .read => readTransaction mdi.tail.length s
  | .ignored => s

/-- The meaning of WRITE_TRANSACTION_BEGIN: a transaction with the bytes that have come so far. Bytes that do not start
with the WRITE code are the transaction they are (R172; log 5). -/
def execWriteTransactionBegin (s : State) (mdi : List Byte := [writeCode]) : Host.Outcome State Fault Refusal :=
  .next (unlessReset (runTransaction beginWrite mdi) s)

/-- The meaning of WRITE_WHILE_BUSY (R176): the port was RESPONDING when the transaction began, whatever it is at the
end. Bytes that do not start with the WRITE code are the transaction they are (R172; log 5). -/
def execWriteWhileBusy (mdi : List Byte) (s : State) : Host.Outcome State Fault Refusal :=
  .next (unlessReset (runTransaction (fun bytes => State.writeBusy bytes.length) mdi) s)

/-! ## SET_MASKS and READ_FAULTS -/

/-- SET_MASKS (R183, R184): the three fault mask settings and the six station masks, ATTENTION re-evaluated. -/
def judgeSetMasks (range order contract stations : Byte) (s : State) : Verdict :=
  match codeOf range, codeOf order, codeOf contract with
  | some r, some o, some c =>
    if stations.toNat < 64 then
      .done false []
        ((s.updPort fun p => { p with masks := ⟨r, o, c⟩ }).updAttention fun a =>
          { a with
            masks := #v[stations.getLsbD 0, stations.getLsbD 1, stations.getLsbD 2, stations.getLsbD 3,
              stations.getLsbD 4, stations.getLsbD 5] })
    else .refused .badNumber
  | _, _, _ => .refused .badNumber

/-- The meaning of SET_MASKS. -/
def execSetMasks (range order contract stations : Byte) (s : State) : Host.Outcome State Fault Refusal :=
  .next (takeCommand 0x12#8 [range, order, contract, stations] (judgeSetMasks range order contract stations) s)

/-- READ_FAULTS (R185): the fault image as it stands after step 1 of the take; with clear, every flag is cleared and
the last refused record becomes absent once the image is fixed. -/
def judgeReadFaults (clear : Byte) (s : State) : Verdict :=
  match codeOf clear with
  | none => .refused .badNumber
  | some c =>
    .done false (faultImage s.port.flags s.port.lastRefused)
      (if c then s.updPort fun p => { p with flags := StickyFlags.clear, lastRefused := none } else s)

/-- The meaning of READ_FAULTS. -/
def execReadFaults (clear : Byte) (s : State) : Host.Outcome State Fault Refusal :=
  .next (takeCommand 0x13#8 [clear] (judgeReadFaults clear) s)

end Sys2Proof.Machine
end

