-- ==== Sys2Proof/Machine/Contracts.lean ====
section
/-! DEFINITION. The commands of the allotment table (chapter 1): INSTALL, AMEND, AMEND_TENANT, PAIR, UNPAIR, RETIRE,
LOOKUP. -/

namespace Sys2Proof.Machine

/-- A command that names one handle: FORMAT above 159, else STATE while FREE (R1). -/
def State.needAllot (s : State) (h : Handle) : Except Detail Allotment :=
  match s.allot h with
  | none => .error .handleFree
  | some r => .ok r

/-- A command that needs a LIVE record (R12, R15). -/
def State.needLive (s : State) (h : Handle) : Except Detail Allotment := do
  let r ← s.needAllot h
  need (r.tag == .live) .retiring
  return r

/-! ## INSTALL (R7 to R11) -/

/-- The record a checked INSTALL writes: contract fields, and the first values of section 1.3. -/
def newAllotment (tenant : Byte) (d : SledNo) (mask : ChannelMask) (idle peak floor ceiling weight : Nat)
    (wake : Bool) : Allotment :=
  { tag := .live, tenant, sled := d, mask, idle, peak, floor, ceiling, weight, wake, partner := none
    demand := none, demandUsed := none, target := idle, sent := idle, sequence := 0, acked := idle
    highest := idle, grant := .unlinked, restatements := 0, wakeAfter := false, mark := false, latest := .none
    unacked := 0, fallbackFloor := floor }

/-- The channels the living allotments of a sled hold (R7). -/
def State.usedChannels (s : State) (d : SledNo) : ChannelMask :=
  (s.sled d).handles.foldl
    (fun m h =>
      match s.allot h with
      | none => m
      | some r => m ||| r.mask)
    0

/-- The channels below a channel count. -/
def channelsBelow (count : Nat) : ChannelMask := BitVec.ofNat 4 (2 ^ count - 1)

/-- What INSTALL's checks leave: the place it goes to and the record. -/
structure Installation where
  handle : Handle
  zone : ZoneNo
  allotment : Allotment
  adjusted : Adjusted
deriving DecidableEq, Repr

/-- The checks of INSTALL beyond FORMAT (R7, R8, R9), in their order. -/
def State.checkInstall (s : State) (tenant : Byte) (d : SledNo) (mask : ChannelMask) (idle peak floor ceiling : Half)
    (weight : Byte) (wake : Bool) : Except Detail Installation := do
  let m := s.port.masks
  match (s.sled d).placement with
  | none => throw .sledUnplaced
  | some p =>
    match s.stack with
    | [] => throw .tableFull
    | h :: _ =>
      need (mask != 0) .maskEmpty
      need (mask &&& ~~~(channelsBelow p.channels) == 0) .maskOutside
      need (mask &&& s.usedChannels d == 0) .maskOverlap
      let (idle, a1) ← rangeCheck m.range 0 1022 .idle idle.toNat
      let (peak, a2) ← rangeCheck m.range 1 1023 .peak peak.toNat
      let (floor, a3) ← rangeCheck m.range 0 1023 .floor floor.toNat
      let (ceiling, a4) ← rangeCheck m.range 0 1023 .ceiling ceiling.toNat
      let (weight, a5) ← rangeCheck m.range 1 15 .weight weight.toNat
      let (floor, ceiling, b) ← orderCheck m.order idle peak floor ceiling
      let (floor, c) ← contractCheck m.contract idle floor (s.zone p.zone).cb (s.zone p.zone).floorSum
      return { handle := h, zone := p.zone
               allotment := newAllotment tenant d mask idle peak floor ceiling weight wake
               adjusted := ⟨a1 || a2 || a3 || a4 || a5, b, c⟩ }

/-- Insert a handle into a list in ascending order (R110). -/
def insertHandle (h : Handle) : List Handle → List Handle
  | [] => [h]
  | k :: ks => if h < k then h :: k :: ks else k :: insertHandle h ks

/-- Steps 1 to 5 of R10: the handle popped, the record written, the sled's list, the floor sum, X and the count. -/
def State.enter (i : Installation) (s : State) : State :=
  let s1 := { s with stack := s.stack.tail }
  let s2 := s1.putAllot i.handle i.allotment
  let s3 := s2.updSled i.allotment.sled fun r => { r with handles := insertHandle i.handle r.handles }
  s3.updZone i.zone fun r => { r with floorSum := r.floorSum + i.allotment.floor, count := r.count + 1 }

/-- Step 6 of R10: on a LINKED or SILENT sled a GRANT of value idle is placed at once; on an IDLE or LOST sled the
record stays UNLINKED (R11). -/
def State.firstGrant (h : Handle) (r : Allotment) (s : State) : State :=
  if s.reachable r.sled then s.place h (.grant r.idle) .changing else s

/-- An INSTALL that passes its checks (R10). -/
def State.applyInstall (i : Installation) (s : State) : State :=
  (((s.enter i).firstGrant i.handle i.allotment).requestNormal i.zone).serveRequests

/-- INSTALL judged and applied; the payload is the handle. -/
def judgeInstall (tenant sled mask : Byte) (idle peak floor ceiling : Half) (weight wake : Byte) (s : State) :
    Verdict :=
  match sledOf sled, maskOf mask, codeOf wake with
  | some d, some m, some w =>
    .ofChecks (s.checkInstall tenant d m idle peak floor ceiling weight w) fun i =>
      verdictOf i.adjusted [byteOf i.handle.val] (s.applyInstall i)
  | _, _, _ => .refused .badNumber

/-- The meaning of INSTALL. -/
def execInstall (tenant sled mask : Byte) (idle peak floor ceiling : Half) (weight wake : Byte) (s : State) :
    Host.Outcome State Fault Refusal :=
  .next (takeCommand 0x06#8 (parameters (.install tenant sled mask idle peak floor ceiling weight wake))
    (judgeInstall tenant sled mask idle peak floor ceiling weight wake) s)

/-! ## Amendments (R12 to R14) -/

/-- Write an amended contract into a record, its zone's floor sum moving with its floor (R13). -/
def State.writeContract (h : Handle) (floor ceiling weight : Nat) (wake : Option Bool) (s : State) : State :=
  match s.allot h with
  | none => s
  | some r =>
    let t := s.setAllot h (some { r with floor, ceiling, weight, wake := wake.getD r.wake })
    match s.zoneOf r with
    | none => t
    | some z => t.updZone z fun v => { v with floorSum := v.floorSum + floor - r.floor }

/-- The target of the direct action of a lowered ceiling, `old` being the record before the amendment: min(target, new
ce) (R13, R79). -/
def State.lowerTarget (h : Handle) (old : Allotment) (s : State) : State :=
  match s.allot h with
  | none => s
  | some r =>
    if r.ceiling < old.ceiling then (s.setTarget h (min r.target (s.presentCe r))).requestNormalFor r.sled else s

/-- The invocation of a record an amendment has written, with a floor refresh where the floor changed (R13, R69,
R75). -/
def State.invokeAmended (h : Handle) (old : Allotment) (s : State) : State :=
  match s.allot h with
  | none => s
  | some r => if r.floor = old.floor then s.invoke h else s.invokeNewFloor h

/-- What follows for the records an amendment has written, in the order given, `before` being the state before it: the
targets of the direct actions of all of them, and then the invocation of each, so that no raise of a pair is tested
with a target above a ceiling in force (R13, R14, R68, R69, R79; log 13). -/
def State.afterAmend (before : State) (written : List Handle) (s : State) : State :=
  let act (f : Handle → Allotment → State → State) (t : State) (h : Handle) : State :=
    match before.allot h with
    | none => t
    | some old => f h old t
  written.foldl (act State.invokeAmended) (written.foldl (act State.lowerTarget) s)

/-- The records an AMEND of a record writes, in ascending handle order: the record and its partner, if it has one. The
manual gives no order of the two (R13, R79; log 13). -/
def amendMembers (h : Handle) (partner : Option Handle) : List Handle :=
  match partner with
  | none => [h]
  | some p => if h < p then [h, p] else [p, h]

/-- What AMEND's checks leave. -/
structure Amendment where
  floor : Nat
  ceiling : Nat
  weight : Nat
  adjusted : Adjusted
deriving DecidableEq, Repr

/-- The CONTRACT check of AMEND: made when the floor is selected and rises, with the room of one record or of a pair
(R12). -/
def State.amendContract (s : State) (r : Allotment) (floor : Nat) : Except Detail (Nat × Bool) :=
  match s.zoneOf r with
  | none => .ok (floor, false)
  | some z =>
    let v := s.zone z
    if floor ≤ r.floor then .ok (floor, false)
    else if r.partner.isSome then
      contractCheckPaired s.port.masks.contract r.idle floor (v.cb + 2 * r.floor) v.floorSum
    else contractCheck s.port.masks.contract r.idle floor (v.cb + r.floor) v.floorSum

/-- The checks of AMEND beyond FORMAT (R12); `selF`, `selC`, `selW` tell the fields selected. -/
def State.checkAmend (s : State) (r : Allotment) (selF selC selW : Bool) (floor ceiling : Half) (weight : Byte) :
    Except Detail Amendment := do
  let m := s.port.masks
  let (f, a1) ← rangeCheckIf selF m.range 0 1023 .floor floor.toNat r.floor
  let (c, a2) ← rangeCheckIf selC m.range 0 1023 .ceiling ceiling.toNat r.ceiling
  let (w, a3) ← rangeCheckIf selW m.range 1 15 .weight weight.toNat r.weight
  let (f, c, b) ← orderCheck m.order r.idle r.peak f c
  let (f, k) ← s.amendContract r f
  return ⟨f, c, w, ⟨a1 || a2 || a3, b, k⟩⟩

/-- An AMEND that passes its checks: the record and its partner written, then the direct actions and the invocations
in ascending handle order, then the request if floor, ceiling or weight changed (R13; log 13). The wake flag is copied
where it is selected (R15; log 11). -/
def State.applyAmend (h : Handle) (r : Allotment) (a : Amendment) (wake : Option Bool) (s : State) : State :=
  let members := amendMembers h r.partner
  let s1 := members.foldl (fun t k => t.writeContract k a.floor a.ceiling a.weight wake) s
  let s2 := s.afterAmend members s1
  let s3 :=
    if a.floor = r.floor ∧ a.ceiling = r.ceiling ∧ a.weight = r.weight then s2 else s2.requestNormalFor r.sled
  s3.serveRequests

/-- AMEND judged and applied: an empty selection is DONE with no change (section 1.7). A wake code is judged only
where it is selected (R191). -/
def judgeAmend (handle selection : Byte) (floor ceiling : Half) (weight wake : Byte) (s : State) : Verdict :=
  match handleOf handle with
  | none => .refused .badNumber
  | some h =>
    if 16 ≤ selection.toNat then .refused .badNumber
    else if selection.getLsbD 3 && (codeOf wake).isNone then .refused .badNumber
    else
      .ofChecks
        (do
          let r ← s.needLive h
          let a ← s.checkAmend r (selection.getLsbD 0) (selection.getLsbD 1) (selection.getLsbD 2) floor ceiling
            weight
          return (r, a))
        fun (r, a) =>
          if selection = 0 then .done false [] s
          else
            verdictOf a.adjusted []
              (s.applyAmend h r a (if selection.getLsbD 3 then codeOf wake else none))

/-- The meaning of AMEND. -/
def execAmend (handle selection : Byte) (floor ceiling : Half) (weight wake : Byte) (s : State) :
    Host.Outcome State Fault Refusal :=
  .next (takeCommand 0x07#8 (parameters (.amend handle selection floor ceiling weight wake))
    (judgeAmend handle selection floor ceiling weight wake) s)

/-- The record is selected by AMEND_TENANT: LIVE, its masked tenant equal to the masked match (R14). -/
def Allotment.selected (tenant mask : Byte) (r : Allotment) : Bool :=
  r.tag == .live && r.tenant &&& mask == tenant &&& mask

/-- The ceiling AMEND_TENANT gives a record (R14). -/
def Allotment.tenantCeiling (percent : Nat) (r : Allotment) : Nat := max r.floor (r.peak * percent / 100)

/-- The ceiling AMEND_TENANT writes at a handle, none where it writes none: its own where it is selected, its
partner's where the partner is (R14). -/
def State.tenantWrite (s : State) (tenant mask : Byte) (percent : Nat) (h : Handle) : Option Nat :=
  match s.allot h with
  | none => none
  | some r =>
    if r.selected tenant mask then some (r.tenantCeiling percent)
    else
      match r.partner.bind s.allot with
      | none => none
      | some q => if q.selected tenant mask then some (q.tenantCeiling percent) else none

/-- The ceiling AMEND_TENANT writes differs from the ceiling a handle had. -/
def State.tenantChanges (s : State) (tenant mask : Byte) (percent : Nat) (h : Handle) : Bool :=
  match s.allot h, s.tenantWrite tenant mask percent h with
  | some r, some c => r.ceiling != c
  | _, _ => false

/-- An AMEND_TENANT that passes its check: the records written in ascending handle order, then the direct actions and
invocations in that order, then a request for each zone that holds a changed record (R14; log 13). -/
def State.applyTenant (tenant mask : Byte) (percent : Nat) (s : State) : State :=
  let written := (List.finRange 160).filter fun h => (s.tenantWrite tenant mask percent h).isSome
  let s1 :=
    written.foldl
      (fun t h =>
        match s.allot h, s.tenantWrite tenant mask percent h with
        | some r, some c => t.setAllot h (some { r with ceiling := c })
        | _, _ => t)
      s
  let s2 := s.afterAmend written s1
  let s3 :=
    (written.filter (s.tenantChanges tenant mask percent)).foldl
      (fun t h =>
        match s.allot h with
        | none => t
        | some r => t.requestNormalFor r.sled)
      s2
  s3.serveRequests

/-- AMEND_TENANT judged and applied; the payload is the count of records changed (R14). -/
def judgeAmendTenant (tenant mask percent : Byte) (s : State) : Verdict :=
  .ofChecks (rangeCheck s.port.masks.range 1 100 .percent percent.toNat) fun (p, a) =>
    verdictOf ⟨a, false, false⟩
      [byteOf ((List.finRange 160).filter (s.tenantChanges tenant mask p)).length]
      (s.applyTenant tenant mask p)

/-- The meaning of AMEND_TENANT. -/
def execAmendTenant (tenant mask percent : Byte) (s : State) : Host.Outcome State Fault Refusal :=
  .next (takeCommand 0x08#8 [tenant, mask, percent] (judgeAmendTenant tenant mask percent) s)

/-! ## Mirror pairs (R15 to R17) -/

/-- The members' contracts agree (R15). -/
def Allotment.sameContract (a b : Allotment) : Bool :=
  a.idle == b.idle && a.peak == b.peak && a.floor == b.floor && a.ceiling == b.ceiling && a.weight == b.weight

/-- The CONFLICT checks of PAIR in the order of R15. -/
def State.checkPair (s : State) (h k : Handle) (a b : Allotment) : Except Detail Unit := do
  need (h != k) .sameHandle
  need (a.partner.isNone && b.partner.isNone) .paired
  need (a.sled != b.sled) .sameSled
  need (s.zoneOf a == s.zoneOf b) .zoneDiffers
  need (a.sameContract b) .contractDiffers
  need (a.grant.inPark == b.grant.inPark) .parkDiffers

/-- Write the partner field of a record. -/
def State.setPartner (h : Handle) (p : Option Handle) (s : State) : State :=
  match s.allot h with
  | none => s
  | some r => s.setAllot h (some { r with partner := p })

/-- PAIR judged and applied (R15, R16). -/
def judgePair (a b : Byte) (s : State) : Verdict :=
  match handleOf a, handleOf b with
  | some h, some k =>
    .ofChecks
      (do
        let ra ← s.needAllot h
        let rb ← s.needAllot k
        need (ra.tag == .live && rb.tag == .live) .retiring
        return (ra, rb))
      fun (ra, rb) =>
        if ra.partner = some k then .done true [] s
        else
          .ofChecks (s.checkPair h k ra rb) fun _ =>
            .done false []
              (((s.setPartner h (some k)).setPartner k (some h)).requestNormalFor ra.sled).serveRequests
  | _, _ => .refused .badNumber

/-- The meaning of PAIR. -/
def execPair (a b : Byte) (s : State) : Host.Outcome State Fault Refusal :=
  .next (takeCommand 0x09#8 [a, b] (judgePair a b) s)

/-- UNPAIR judged and applied (R17). -/
def judgeUnpair (handle : Byte) (s : State) : Verdict :=
  match handleOf handle with
  | none => .refused .badNumber
  | some h =>
    .ofChecks (s.needAllot h) fun r =>
      match r.partner with
      | none => .done true [] s
      | some p =>
        .done false [] (((s.setPartner h none).setPartner p none).requestNormalFor r.sled).serveRequests

/-- The meaning of UNPAIR. -/
def execUnpair (handle : Byte) (s : State) : Host.Outcome State Fault Refusal :=
  .next (takeCommand 0x0A#8 [handle] (judgeUnpair handle) s)

/-! ## RETIRE (R18) -/

/-- The paths of R18. -/
inductive RetirePath where
  | free
  | wait
  | release
deriving DecidableEq, Repr

/-- The first path of R18's table whose condition holds. -/
def retirePath (g : GrantState) (d : Sled) : RetirePath :=
  if g = .unlinked then .free
  else
    match d.link with
    | .idle | .unplaced => .free
    | .lost => if d.elapsed then .free else .wait
    | .linked | .silent => .release

/-- Break the pair of a record: the partner field of its partner (R18 step 2). -/
def State.breakPair (r : Allotment) (s : State) : State :=
  match r.partner with
  | none => s
  | some p => s.setPartner p none

/-- The record once RETIRE has made it RETIRING: unpaired, target idle; a PARKED record's grant fields are set to
idle first (R18, R154). -/
def Allotment.retire (r : Allotment) : Allotment :=
  let r := if r.grant = .parked then r.level r.idle else r
  { r with tag := .retiring, partner := none, target := r.idle }

/-- RETIRE of a LIVE record (R18). A RELEASE that R66 holds back is placed at the acknowledgement of the latest
sequence (R77; log 10). -/
def State.retireLive (h : Handle) (r : Allotment) (s : State) : State :=
  let s1 := ((s.breakPair r).putAllot h r.retire).requestNormalFor r.sled
  match retirePath r.grant (s.sled r.sled) with
  | .free => (s1.freeAllot h).retryIf (decide (0 < r.retire.exposure)) (s.zoneOf r)
  | .wait => s1
  | .release => (s1.place h .release .changing).invoke h

/-- RETIRE judged and applied. -/
def judgeRetire (handle : Byte) (s : State) : Verdict :=
  match handleOf handle with
  | none => .refused .badNumber
  | some h =>
    .ofChecks (s.needAllot h) fun r =>
      if r.tag = .retiring then .done true [] s else .done false [] (s.retireLive h r).serveRequests

/-- The meaning of RETIRE. -/
def execRetire (handle : Byte) (s : State) : Host.Outcome State Fault Refusal :=
  .next (takeCommand 0x0D#8 [handle] (judgeRetire handle) s)

/-! ## LOOKUP (R21) -/

/-- LOOKUP judged: it changes no state. -/
def judgeLookup (handle : Byte) (s : State) : Verdict :=
  match handleOf handle with
  | none => .refused .badNumber
  | some h =>
    .ofChecks (s.needAllot h) fun r => .done false (recordImage h (s.sled r.sled).link r) s

/-- The meaning of LOOKUP. -/
def execLookup (handle : Byte) (s : State) : Host.Outcome State Fault Refusal :=
  .next (takeCommand 0x0E#8 [handle] (judgeLookup handle) s)

end Sys2Proof.Machine
end

