-- ==== Sys2Proof/Machine/Assess.lean ====
section
/-! DEFINITION. The report assessor (chapter 5): demand, thermal states, airflow chains, SET_THERMAL and the expiry of
the THERMAL_WARM hold timer. -/

namespace Sys2Proof.Machine

/-! ## Thermal states (R95 to R98) -/

/-- One below a state; one below NORMAL is NORMAL (section 5.1). -/
def Thermal.below : Thermal → Thermal
  | .normal => .normal
  | .warm => .normal
  | .hot => .warm
  | .critical => .hot

/-- The larger of two thermal states. -/
def Thermal.larger (a b : Thermal) : Thermal := if a.rank < b.rank then b else a

/-- The highest state whose on threshold a temperature reaches, NORMAL where it reaches none (R97). -/
def Assessor.reached (a : Assessor) (t : Nat) : Thermal :=
  if a.criticalOn ≤ t then .critical
  else if a.hotOn ≤ t then .hot
  else if a.warmOn ≤ t then .warm
  else .normal

/-- The drop from WARM (R97 step 2). -/
def Assessor.dropWarm (a : Assessor) (t : Nat) : Thermal := if t < a.warmOff then .normal else .warm

/-- The drop from HOT, and on from WARM (R97 step 2). -/
def Assessor.dropHot (a : Assessor) (t : Nat) : Thermal := if t < a.hotOff then a.dropWarm t else .hot

/-- The drop of a state: one state at a time while the temperature is below its off threshold (R97 step 2). -/
def Assessor.drop (a : Assessor) (t : Nat) : Thermal → Thermal
  | .normal => .normal
  | .warm => a.dropWarm t
  | .hot => a.dropHot t
  | .critical => if t < a.criticalOff then a.dropHot t else .critical

/-- The own state after a report of temperature `t` (R97): a rise to the highest state reached above the present one,
else the drop. -/
def Assessor.evaluate (a : Assessor) (t : Nat) (own : Thermal) : Thermal :=
  if own.rank < (a.reached t).rank then a.reached t else a.drop t own

/-- The sensor-fault code (R96). -/
def sensorFault : Byte := 0xFF#8

/-- The sled temperature T of a report: the largest temperature that is no fault code, none where all are (R96). -/
def sledTemperature (ts : List Triple) : Option Nat :=
  ((ts.filter fun t => t.temperature != sensorFault).map (·.temperature.toNat)).max?

/-- The own state an all-fault report gives: HOT, unless it is CRITICAL (R96). -/
def Thermal.onFault : Thermal → Thermal
  | .critical => .critical
  | .normal | .warm | .hot => .hot

/-- The upstream of a sled. -/
def State.upstreamOf (s : State) (d : SledNo) : Option SledNo := (s.sled d).placement.bind (·.upstream)

/-- The effective state R98 gives: the larger of the own state and one below the upstream's effective state, NORMAL
where there is no upstream. -/
def State.effectiveFor (s : State) (d : SledNo) : Thermal :=
  match s.upstreamOf d with
  | none => (s.sled d).own
  | some u => (s.sled d).own.larger (s.sled u).eff.below

/-- The sleds that name a sled as upstream, in ascending number (R99). -/
def State.downstreamOf (s : State) (d : SledNo) : List SledNo :=
  (List.finRange 48).filter fun c => s.upstreamOf c == some d

/-! ## The consequences of a change (R99 to R101) -/

/-- Set the urgent request of a sled's zone. -/
def State.requestUrgentFor (d : SledNo) (s : State) : State :=
  match s.zoneOfSled d with
  | none => s
  | some z => s.requestUrgent z

/-- The CRITICAL direct action on a sled's living records, in the order of its list (R79, R101). -/
def State.criticalAction (d : SledNo) (s : State) : State :=
  (s.sled d).handles.foldl
    (fun s h =>
      match s.allot h with
      | none => s
      | some r => s.directAction h r.idle)
    s

/-- The consequences of a change of a sled's effective state from `old` to `new` (R100, R101, R102). -/
def State.consequences (d : SledNo) (old new : Thermal) (s : State) : State :=
  if old.rank < new.rank then
    match new with
    | .normal => s
    | .warm => ((s.raiseSled d .warm).setWarmTimer d .running).requestNormalFor d
    | .hot => (s.raiseSled d .hot).requestUrgentFor d
    | .critical => ((s.raiseSled d .critical).requestUrgentFor d).criticalAction d
  else s.requestNormalFor d

/-- Recompute a sled's effective state (R98); a change is written with its consequences (R99 steps 1 and 2). Answers
whether it changed. -/
def State.reviewEff (d : SledNo) (s : State) : State × Bool :=
  let old := (s.sled d).eff
  let new := s.effectiveFor d
  if new = old then (s, false)
  else ((s.updSled d fun r => { r with eff := new }).consequences d old new, true)

/-- One hop (R99 steps 3 and 4): the sleds naming each of `l` as upstream reviewed, and those that changed. -/
def State.hop (l : List SledNo) (s : State) : State × List SledNo :=
  (l.flatMap s.downstreamOf).foldl
    (fun acc c =>
      let r := acc.1.reviewEff c
      (r.1, if r.2 then acc.2 ++ [c] else acc.2))
    (s, [])

/-- Carry a change downstream hop by hop; chains have at most 3 hops (R98, R99, R112). -/
def State.carry : Nat → List SledNo → State → State
  | 0, _, s => s
  | n + 1, l, s => State.carry n (s.hop l).2 (s.hop l).1

/-- Recompute a sled's effective state and carry a change along its chain (R99). -/
def State.reviewChain (d : SledNo) (s : State) : State :=
  if (s.reviewEff d).2 then State.carry 3 [d] (s.reviewEff d).1 else s

/-- Set a sled's own state; a change has the effective state recomputed and carried (R97, R98). -/
def State.setOwn (d : SledNo) (own : Thermal) (s : State) : State :=
  if own = (s.sled d).own then s else (s.updSled d fun r => { r with own := own }).reviewChain d

/-! ## Demand (R89 to R92) -/

/-- The triples of the channels of a mask (R89). -/
def coveredTriples (m : ChannelMask) (ts : List Triple) : List Triple :=
  ((ts.zipIdx).filter fun p => m.getLsbD p.2).map (·.1)

/-- The activity of an allotment: the truncated mean over its channels (R89). -/
def activityOf (ts : List Triple) : Nat := (ts.map (·.activity.toNat)).sum / ts.length

/-- The demand of an allotment that is not deferred, its division rounded up (R90). -/
def activityDemand (idle peak a : Nat) : Nat := idle + ((peak - idle) * a + 254) / 255

/-- The demand of a deferred allotment (R91). -/
def deferredDemand (ramp idle peak sent : Nat) : Nat := min peak (sent + max ramp ((peak - idle) / 8))

/-- The demand of an allotment from the triples of its channels, with its zone's ramp step (R89 to R91). -/
def Allotment.demandFrom (ramp : Nat) (ts : List Triple) (r : Allotment) : Nat :=
  if ts.any (·.deferred) then deferredDemand ramp r.idle r.peak r.sent
  else activityDemand r.idle r.peak (activityOf ts)

/-- The distance between demand and demand used. -/
def distance (a b : Nat) : Nat := (a - b) + (b - a)

/-- The deadband test passes (R92): demand used absent, or demand differs from it by D or more. -/
def deadbandPasses (deadband demand : Nat) : Option Nat → Bool
  | none => true
  | some u => decide (deadband ≤ distance demand u)

/-- The deadband test is made for a LIVE record in CHANGING, SETTLED or HELD (R92). -/
def Allotment.testable (r : Allotment) : Bool :=
  r.tag == .live &&
    match r.grant with
    | .changing | .settled | .held => true
    | .unlinked | .parkPending | .parking | .parked | .fallen => false

end Sys2Proof.Machine
end

