-- ==== Sys2Proof/Machine/Sleds.lean ====
section
/-! DEFINITION. Sled placement and the commands of the report assessor (chapters 5 and 6): PLACE_SLED, READ_SLED,
SET_THERMAL, and the expiry of the THERMAL_WARM hold timer. -/

namespace Sys2Proof.Machine

/-! ## Chains of upstreams (R112) -/

/-- The chain of upstreams above a sled, nearest first, at most `fuel` of them. -/
def State.upstreams (s : State) : Nat → SledNo → List SledNo
  | 0, _ => []
  | n + 1, d =>
    match s.upstreamOf d with
    | none => []
    | some u => u :: s.upstreams n u

/-- The hops from a sled up to the top of its chain. -/
def State.hopsUp (s : State) (d : SledNo) : Nat := (s.upstreams 48 d).length

/-- The place of a sled in a list of upstreams, counted from 1, and 0 where it does not stand there. -/
def placeIn (d : SledNo) (l : List SledNo) : Nat := if d ∈ l then l.idxOf d + 1 else 0

/-- The hops down from a sled to the farthest sled that names it through a chain of upstreams. -/
def State.hopsDown (s : State) (d : SledNo) : Nat :=
  ((List.finRange 48).map fun c => placeIn d (s.upstreams 48 c)).foldl max 0

/-- Hops on the longest chain through a sled after its upstream is set (R112). -/
def State.chainHops (s : State) (d : SledNo) : Option SledNo → Nat
  | none => s.hopsDown d
  | some u => s.hopsUp u + 1 + s.hopsDown d

/-! ## PLACE_SLED (R111 to R114) -/

/-- Some placed sled names the sled as its upstream. -/
def State.namedUpstream (s : State) (d : SledNo) : Bool := !(s.downstreamOf d).isEmpty

/-- The CONFLICT checks of a placement with an upstream, in the order of R112. -/
def State.checkUpstream (s : State) (d : SledNo) (up : Option SledNo) : Except Detail Unit := do
  match up with
  | none => pure ()
  | some u =>
    need (u != d) .selfUpstream
    need (s.sled u).placement.isSome .upstreamUnplaced
    need (!decide (d ∈ s.upstreams 48 u)) .cycle
  need (decide (s.chainHops d up ≤ 3)) .tooDeep

/-- The STATE check of a placement: a sled with non-FREE allotments keeps its zone and its channel count (R112). -/
def State.checkMove (s : State) (d : SledNo) (z : ZoneNo) (count : Nat) : Except Detail Unit :=
  match (s.sled d).placement with
  | none => .ok ()
  | some p => need ((s.sled d).handles.isEmpty || (p.zone == z && p.channels == count)) .hasAllotments

/-- The unplacing of a sled (R114, R103): no cause is raised and its item is kept. -/
def State.unplace (d : SledNo) (s : State) : State :=
  if (s.sled d).placement.isNone then s
  else
    ((s.dropFrames d).updSled d fun r =>
      { r with
        placement := none, link := .unplaced, silence := 0, fallbacks := 0, elapsed := false, answered := false
        report := none, own := .normal, eff := .normal }).setWarmTimer d .stopped

/-- The placing of an UNPLACED sled (R113, R103). -/
def State.placeNew (d : SledNo) (p : Placement) (s : State) : State :=
  (s.updSled d fun r =>
    { r with
      placement := some p, link := .idle, silence := 0, fallbacks := 0, elapsed := false, answered := false
      report := none, own := .normal, eff := .normal }).reviewChain d

/-- A changed placement of a placed sled (R114, R103): a changed count clears the last report, a changed upstream
recomputes the effective state. -/
def State.placeAgain (d : SledNo) (old new : Placement) (s : State) : State :=
  let s1 := s.updSled d fun r =>
    { r with placement := some new, report := if new.channels = old.channels then r.report else none }
  if new.upstream = old.upstream then s1 else s1.reviewChain d

/-- PLACE_SLED with a zone, checked (R111, R112) and applied (R113, R114). -/
def judgePlace (d : SledNo) (z : ZoneNo) (channels : Byte) (up : Option SledNo) (s : State) : Verdict :=
  .ofChecks
    (do
      let (count, a) ← rangeCheck s.port.masks.range 1 4 .channels channels.toNat
      s.checkMove d z count
      s.checkUpstream d up
      return (count, a))
    fun (count, a) =>
      let p : Placement := ⟨z, count, up⟩
      let t :=
        match (s.sled d).placement with
        | none => s.placeNew d p
        | some old => s.placeAgain d old p
      verdictOf ⟨a, false, false⟩ [] t.serveRequests

/-- PLACE_SLED with a zone of none, checked (R112) and applied (R114): its count and upstream are not used (section
6.3; log 14). -/
def judgeUnplace (d : SledNo) (s : State) : Verdict :=
  .ofChecks
    (do
      need ((s.sled d).handles.isEmpty || (s.sled d).placement.isNone) .hasAllotments
      need (!s.namedUpstream d) .isUpstream)
    fun _ => .done false [] (s.unplace d)

/-- PLACE_SLED judged and applied. -/
def judgePlaceSled (sled zone channels upstream : Byte) (s : State) : Verdict :=
  match sledOf sled, orNone zoneNoOf zone with
  | some d, some none => judgeUnplace d s
  | some d, some (some z) =>
    match orNone sledOf upstream with
    | some up => judgePlace d z channels up s
    | none => .refused .badNumber
  | _, _ => .refused .badNumber

/-- The meaning of PLACE_SLED. -/
def execPlaceSled (sled zone channels upstream : Byte) (s : State) : Host.Outcome State Fault Refusal :=
  .next (takeCommand 0x05#8 [sled, zone, channels, upstream] (judgePlaceSled sled zone channels upstream) s)

/-! ## READ_SLED (R127) -/

/-- READ_SLED judged: it changes no state. -/
def judgeReadSled (sled : Byte) (s : State) : Verdict :=
  match sledOf sled with
  | none => .refused .badNumber
  | some d => .done false (sledImage d (s.sled d)) s

/-- The meaning of READ_SLED. -/
def execReadSled (sled : Byte) (s : State) : Host.Outcome State Fault Refusal :=
  .next (takeCommand 0x0F#8 [sled] (judgeReadSled sled) s)

/-! ## SET_THERMAL (R106, R107) -/

/-- The conditions the thresholds always satisfy (R95). -/
def Assessor.ordered (a : Assessor) : Bool :=
  decide (a.warmOff < a.warmOn) && decide (a.hotOff < a.hotOn) && decide (a.criticalOff < a.criticalOn)
    && decide (a.warmOn < a.hotOn) && decide (a.hotOn < a.criticalOn)
    && decide (a.warmOff < a.hotOff) && decide (a.hotOff < a.criticalOff)

/-- The RANGE check of a threshold (R106). -/
def thresholdCheck (adjust : Bool) (v : Byte) : Except Detail (Nat × Bool) :=
  rangeCheck adjust 0 254 .threshold v.toNat

/-- The RANGE check of a derate (R106). -/
def derateCheck (adjust : Bool) (v : Byte) : Except Detail (Nat × Bool) := rangeCheck adjust 1 100 .derate v.toNat

/-- The RANGE and ORDER checks of SET_THERMAL (R106); the ORDER fault has no adjustment (R179). -/
def checkThermal (adjust : Bool) (w1 w0 h1 h0 c1 c0 dw dh : Byte) : Except Detail (Assessor × Bool) := do
  let (warmOn, a1) ← thresholdCheck adjust w1
  let (warmOff, a2) ← thresholdCheck adjust w0
  let (hotOn, a3) ← thresholdCheck adjust h1
  let (hotOff, a4) ← thresholdCheck adjust h0
  let (criticalOn, a5) ← thresholdCheck adjust c1
  let (criticalOff, a6) ← thresholdCheck adjust c0
  let (warmDerate, a7) ← derateCheck adjust dw
  let (hotDerate, a8) ← derateCheck adjust dh
  let a : Assessor := { warmOn, warmOff, hotOn, hotOff, criticalOn, criticalOff, warmDerate, hotDerate }
  need a.ordered .thresholdOrder
  return (a, a1 || a2 || a3 || a4 || a5 || a6 || a7 || a8)

/-- The effect of a SET_THERMAL that passes its checks (R107): changed derates request every zone. -/
def State.applyThermal (a : Assessor) (s : State) : State :=
  let s1 := { s with assessor := a }
  if a.warmDerate = s.assessor.warmDerate ∧ a.hotDerate = s.assessor.hotDerate then s1
  else s1.requestAll.serveRequests

/-- SET_THERMAL judged and applied. -/
def judgeSetThermal (w1 w0 h1 h0 c1 c0 dw dh : Byte) (s : State) : Verdict :=
  .ofChecks (checkThermal s.port.masks.range w1 w0 h1 h0 c1 c0 dw dh) fun (a, adjusted) =>
    verdictOf ⟨adjusted, false, false⟩ [] (s.applyThermal a)

/-- The meaning of SET_THERMAL. -/
def execSetThermal (w1 w0 h1 h0 c1 c0 dw dh : Byte) (s : State) : Host.Outcome State Fault Refusal :=
  .next (takeCommand 0x02#8 [w1, w0, h1, h0, c1, c0, dw, dh] (judgeSetThermal w1 w0 h1 h0 c1 c0 dw dh) s)

/-! ## WARM_TIMER_EXPIRY (R102, R169) -/

/-- The expiry of a sled's hold timer: the timer stops and THERMAL_WARM leaves the sled's item. A stopped timer does
not expire (log 3). -/
def warmExpiry (d : SledNo) (s : State) : State :=
  match s.warmTimers[d] with
  | .stopped => s
  | .running =>
    (s.setWarmTimer d .stopped).updAttention fun a =>
      { a with sleds := a.sleds.set d { a.sleds[d] with warm := false } }

/-- The meaning of WARM_TIMER_EXPIRY. -/
def execWarmTimerExpiry (d : SledNo) (s : State) : Host.Outcome State Fault Refusal :=
  .next (unlessReset (warmExpiry d) s)

end Sys2Proof.Machine
end

