-- ==== Sys2Proof/Machine/Stations.lean ====
section
/-! DEFINITION. The station link controllers and the loss of sleds (chapters 6 and 7): refresh events with fallback,
silence, restatement and interval, transmission, and SET_STATION. -/

namespace Sys2Proof.Machine

/-! ## Loss (R121 to R123) -/

/-- A LINKED sled becomes SILENT (R121). -/
def State.goSilent (d : SledNo) (s : State) : State := s.updSled d fun r => { r with link := .silent }

/-- A sled goes LOST: link state, fallback count and flag, and its waiting frames removed (R123 steps 1 and 2, R129). -/
def State.giveUp (d : SledNo) (s : State) : State :=
  (s.updSled d fun r => { r with link := .lost, fallbacks := 0, elapsed := false }).dropFrames d

/-- A loss by silence or by the restatement limit: also SLED_LOST is raised (R123). -/
def State.lose (d : SledNo) (s : State) : State := (s.giveUp d).raiseSled d .lost

/-- The silence count at which a LINKED sled becomes SILENT (R121). -/
def silentAt : Nat := 3

/-- The silence count at which a sled goes LOST (R121). -/
def lostAt : Nat := 8

/-- The restatements at which a sled goes LOST (R122). -/
def restatementLimit : Nat := 4

/-- The fallback count at which the fallback elapses (R125). -/
def fallbackAt : Nat := 5

/-- Some record of the sled has reached the restatement limit (R122). -/
def State.limitReached (s : State) (d : SledNo) : Bool :=
  (s.sled d).handles.any fun h => (s.allot h).any fun r => decide (restatementLimit ≤ r.restatements)

/-! ## Fallback (R125, R126, R195) -/

/-- What a fallback makes of a record that is neither RETIRING nor PARKED: its grant fields at m = min(exposure,
fallback floor), PARKING from a park, else FALLEN; restatements 0 (R126). -/
def Allotment.fallBack (r : Allotment) : Allotment :=
  { r.level (min r.exposure r.fallbackFloor) with
    restatements := 0
    grant := if r.grant = .parking ∨ r.grant = .parkPending then .parking else .fallen }

/-- A fallback at one record, by the first row of R126 that matches it. -/
def State.fallRecord (h : Handle) (s : State) : State :=
  match s.allot h with
  | none => s
  | some r =>
    if r.tag = .retiring then s.freeAllot h
    else if r.grant = .parked then s
    else s.putAllot h r.fallBack

/-- A record that the fallback sends to FALLEN (R195). -/
def Allotment.willFall (r : Allotment) : Bool :=
  r.tag == .live && !r.grant.inPark

/-- The exposure X of a sled's zone, 0 where it has none. -/
def State.zoneX (s : State) (zo : Option ZoneNo) : Nat :=
  match zo with
  | none => 0
  | some z => (s.zone z).x

/-- The elapse of a sled's fallback (R126): the flag, each record in the order of the list, one retry if X fell, then
the request if a record went to FALLEN (R195). -/
def State.elapseFallback (d : SledNo) (s : State) : State :=
  let zo := s.zoneOfSled d
  let handles := (s.sled d).handles
  let fell := handles.any fun h => (s.allot h).any Allotment.willFall
  let s1 := s.updSled d fun r => { r with elapsed := true }
  let s2 := handles.foldl (fun s h => s.fallRecord h) s1
  let s3 := s2.retryIf (decide (s2.zoneX zo < s.zoneX zo)) zo
  if fell then s3.requestNormalFor d else s3

/-! ## The phases of a refresh event (R142) -/

/-- Phase 1 at one sled: the fallback count of a LOST sled advances and may reach 5 (R125). -/
def State.advanceFallback (s : State) (d : SledNo) : State :=
  if (s.sled d).link = .lost ∧ (s.sled d).elapsed = false then
    let s1 := s.updSled d fun r => { r with fallbacks := r.fallbacks + 1 }
    if fallbackAt ≤ (s1.sled d).fallbacks then s1.elapseFallback d else s1
  else s

/-- What a sled's silence count makes of it: LOST at 8, SILENT from LINKED at 3 (R121). -/
def State.judgeSilence (d : SledNo) (s : State) : State :=
  if lostAt ≤ (s.sled d).silence then s.lose d
  else if (s.sled d).link = .linked ∧ silentAt ≤ (s.sled d).silence then s.goSilent d
  else s

/-- Phase 2 at one sled (R121). -/
def State.advanceSilence (s : State) (d : SledNo) : State :=
  if s.reachable d then (s.updSled d fun r => { r with silence := r.silence + 1 }).judgeSilence d else s

/-- The restatement of a record in these states is counted: its latest entry is unacknowledged (R122). -/
def GrantState.counted : GrantState → Bool
  | .changing | .parkPending | .parking => true
  | .unlinked | .settled | .held | .parked | .fallen => false

/-- The sled's waiting frame already holds an entry for the handle (R143). -/
def State.frameHolds (s : State) (d : SledNo) (h : Handle) : Bool :=
  (waitingFrame d (s.station (stationOf d)).queue).any fun f => f.entries.any fun e => e.handle == h

/-- The restatement of one record of a sled that is still LINKED or SILENT (R143): its latest entry goes into the
sled's waiting frame, unless the frame held one for it before, and is counted; the fourth sends the sled LOST at
once, and no further record is restated (R122; log 20). `held` is the waiting frame as the refresh event found it. -/
def State.restate (held : Handle → Bool) (d : SledNo) (s : State) (h : Handle) : State :=
  match s.allot h with
  | none => s
  | some r =>
    match r.latestEntry h with
    | none => s
    | some e =>
      if !s.reachable d || held h then s
      else
        let s1 := s.handEntry d (some e)
        if r.grant.counted then
          let s2 := s1.putAllot h { r with restatements := r.restatements + 1 }
          if restatementLimit ≤ r.restatements + 1 then s2.lose d else s2
        else s1

/-- A sled with no waiting frame receives one: a new GRANT frame, which its restated entries fill (R143). -/
def State.openFrame (d : SledNo) (s : State) : State :=
  s.updStation (stationOf d) fun st =>
    if (waitingFrame d st.queue).isSome then st else { st with queue := st.queue ++ [⟨d, .grant, []⟩] }

/-- Phase 3 at one sled (R142, R143). -/
def State.restateSled (s : State) (d : SledNo) : State :=
  if s.reachable d then
    (s.sled d).handles.foldl (State.restate (s.frameHolds d) d) (s.openFrame d)
  else s

/-- A fallback of the station is running: some sled of it is LOST with its fallback not elapsed (R145). -/
def State.fallbackRunning (s : State) (st : StationNo) : Bool :=
  (sledsOf st).any fun d => (s.sled d).link == .lost && !(s.sled d).elapsed

/-- Phase 4 (R145): a pending interval takes effect, unless it is shorter and a fallback is running. -/
def State.examineInterval (st : StationNo) (s : State) : State :=
  match (s.station st).pendingInterval with
  | none => s
  | some p =>
    if (s.station st).interval ≤ p ∨ s.fallbackRunning st = false then
      s.updStation st fun r => { r with interval := p, pendingInterval := none }
    else s

/-- A refresh event of a station, its four phases in order (R142). The sleds are taken in ascending number in every
phase; the manual says so of phase 3 alone, and of phases 1 and 2 it is the model's choice (log 23). A stopped timer
brings none (log 3). -/
def refreshEvent (st : StationNo) (s : State) : State :=
  match (s.station st).timer with
  | .stopped => s
  | .running =>
    let s1 := (sledsOf st).foldl State.advanceFallback s
    let s2 := (sledsOf st).foldl State.advanceSilence s1
    let s3 := (sledsOf st).foldl State.restateSled s2
    (s3.examineInterval st).serveRequests

/-- The meaning of REFRESH_EVENT. -/
def execRefreshEvent (st : StationNo) (s : State) : Host.Outcome State Fault Refusal :=
  .next (unlessReset (refreshEvent st) s)

/-! ## The steps of a refresh event that the table lists on their own (log 6) -/

/-- GOING_SILENT (R121): a LINKED sled whose silence count has reached 3. -/
def goingSilent (d : SledNo) (s : State) : State :=
  if (s.sled d).link = .linked ∧ silentAt ≤ (s.sled d).silence then s.goSilent d else s

/-- The meaning of GOING_SILENT. -/
def execGoingSilent (d : SledNo) (s : State) : Host.Outcome State Fault Refusal :=
  .next (unlessReset (goingSilent d) s)

/-- LOSS (R123): a LINKED or SILENT sled whose silence count has reached 8 or one of whose records has reached the
restatement limit. -/
def loss (d : SledNo) (s : State) : State :=
  if s.reachable d && (decide (lostAt ≤ (s.sled d).silence) || s.limitReached d) then s.lose d else s

/-- The meaning of LOSS. -/
def execLoss (d : SledNo) (s : State) : Host.Outcome State Fault Refusal := .next (unlessReset (loss d) s)

/-- FALLBACK (R125, R126): a LOST sled whose fallback count has reached 5 and whose fallback has not elapsed. -/
def fallback (d : SledNo) (s : State) : State :=
  if (s.sled d).link = .lost ∧ (s.sled d).elapsed = false ∧ fallbackAt ≤ (s.sled d).fallbacks then
    (s.elapseFallback d).serveRequests
  else s

/-- The meaning of FALLBACK. -/
def execFallback (d : SledNo) (s : State) : Host.Outcome State Fault Refusal := .next (unlessReset (fallback d) s)

/-! ## Transmission (R137, R138, R189) -/

/-- The start of a transmission: with the link free, the head frame leaves the queue and is sent with the interval in
effect and a fresh address and check byte (R137, R189). -/
def transmissionStart (st : StationNo) (s : State) : State :=
  let r := s.station st
  match r.sending, r.queue with
  | none, f :: rest =>
    s.updStation st fun r =>
      { r with queue := rest, sending := some ⟨f, r.interval, f.bytes r.interval⟩ }
  | _, _ => s

/-- The meaning of TRANSMISSION_START. -/
def execTransmissionStart (st : StationNo) (s : State) : Host.Outcome State Fault Refusal :=
  .next (unlessReset (transmissionStart st) s)

/-- The completion of a transmission: the link is free (R138). -/
def transmissionCompletion (st : StationNo) (s : State) : State := s.updStation st fun r => { r with sending := none }

/-- The meaning of TRANSMISSION_COMPLETION. -/
def execTransmissionCompletion (st : StationNo) (s : State) : Host.Outcome State Fault Refusal :=
  .next (unlessReset (transmissionCompletion st) s)

/-! ## SET_STATION (R144) -/

/-- SET_STATION judged and applied: the interval in effect clears a pending one, any other becomes pending. -/
def judgeSetStation (station interval : Byte) (s : State) : Verdict :=
  match stationNoOf station with
  | none => .refused .badNumber
  | some st =>
    .ofChecks (rangeCheck s.port.masks.range 2 255 .interval interval.toNat) fun (i, a) =>
      verdictOf ⟨a, false, false⟩ []
        (s.updStation st fun r => { r with pendingInterval := if i = r.interval then none else some i })

/-- The meaning of SET_STATION. -/
def execSetStation (station interval : Byte) (s : State) : Host.Outcome State Fault Refusal :=
  .next (takeCommand 0x03#8 [station, interval] (judgeSetStation station interval) s)

end Sys2Proof.Machine
end

