-- ==== Sys2Proof/Machine/System.lean ====
section
/-! DEFINITION. TAKE_ATTENTION, RESTART and power-on reset (chapters 9 and 10). -/

namespace Sys2Proof.Machine

/-! ## TAKE_ATTENTION (R166, R168) -/

/-- Remove the causes of the item taken, if any, and re-evaluate ATTENTION (R165, R166). -/
def State.takeItem (item : Option ItemName) (s : State) : State :=
  match item with
  | none => s
  | some i => s.updAttention (AttentionUnit.clear i)

/-- TAKE_ATTENTION judged and applied: the first item pending and unmasked is returned whole and cleared (R166). -/
def judgeTakeAttention (s : State) : Verdict :=
  let item := s.attention.first
  .done false (attentionImage item s.attention (s.takeItem item).attention) (s.takeItem item)

/-- The meaning of TAKE_ATTENTION. -/
def execTakeAttention (s : State) : Host.Outcome State Fault Refusal :=
  .next (takeCommand 0x11#8 [] judgeTakeAttention s)

/-! ## RESTART (R186) -/

/-- RESTART at one record: PARK_PENDING back to CHANGING, the snapshot mark cleared (R24, R65). -/
def Allotment.restart (r : Allotment) : Allotment :=
  { r with grant := if r.grant = .parkPending then .changing else r.grant, mark := false }

/-- RESTART at one sled: LINKED and SILENT become LOST, with no cause raised (R129). -/
def Sled.restart (r : Sled) : Sled :=
  match r.link with
  | .linked | .silent => { r with link := .lost, fallbacks := 0, elapsed := false }
  | .unplaced | .idle | .lost => r

/-- RESTART at one zone record: the requests cleared, then the normal request set (R43, R65). -/
def Zone.restart (r : Zone) : Zone := { r with normalReq := true, urgentReq := false }

/-- RESTART applied by every block (R24, R43, R65, R85, R109, R129, R148, R171, R186), the apportioner's choice of a
zone last (R65 step 4). -/
def State.restart (s : State) : State :=
  State.serveRequests <|
    State.updAttention
      (fun a =>
        { a with zones := Vector.replicate 8 ZoneItem.empty, sleds := Vector.replicate 48 SledItem.empty })
      { s with
        allotments := tabulate fun h => (s.allot h).map Allotment.restart
        zones := tabulate fun z => (s.zone z).restart
        sleds := tabulate fun d => (s.sled d).restart
        stations := tabulate fun st => { s.station st with queue := [] }
        warmTimers := Vector.replicate 48 .stopped
        service := none
        port := { s.port with flags := StickyFlags.clear, lastRefused := none } }

/-- RESTART judged and applied. -/
def judgeRestart (s : State) : Verdict := .done false [] s.restart

/-- The meaning of RESTART. -/
def execRestart (s : State) : Host.Outcome State Fault Refusal := .next (takeCommand 0x14#8 [] judgeRestart s)

/-! ## Power-on reset (R187, R188) -/

/-- RESET_N low: every state returns to its power-on value; the levels on the curtail inputs and the commands waiting
outside are not the part's (log 9). -/
def powerOnReset (s : State) : State := State.powerOn s.curtailPins s.pending

/-- The meaning of POWER_ON_RESET. -/
def execPowerOnReset (s : State) : Host.Outcome State Fault Refusal := .next (powerOnReset s)

/-- A filter when reset ends: the sampled level becomes the candidate and the timer starts (R30). -/
def Zone.sample (level : Bool) (r : Zone) : Zone := { r with candidate := some level, filter := .running }

/-- Reset ends (R187): the curtail lines are sampled (R30), the refresh timers start (R147), READY becomes active and
POWERED_UP is raised (R170). Where no reset is held none ends (log 3). -/
def resetEnd (s : State) : State :=
  if s.resetHeld then
    State.raisePoweredUp
      { s with
        zones := tabulate fun z => (s.zone z).sample s.curtailPins[z]
        stations := tabulate fun st => { s.station st with timer := .running }
        resetHeld := false
        readyPin := true }
  else s

/-- The meaning of RESET_END. -/
def execResetEnd (s : State) : Host.Outcome State Fault Refusal := .next (resetEnd s)

end Sys2Proof.Machine
end

