-- ==== Sys2Proof/Machine/Parking.lean ====
section
/-! DEFINITION. Parking (chapter 8): PARK, UNPARK, and the unpark request that a wake on demand hands over. -/

namespace Sys2Proof.Machine

/-- What PARK and UNPARK name (section 8.1). -/
inductive ParkScope where
  | handle (h : Handle)
  | sled (d : SledNo)
deriving DecidableEq, Repr

/-- The selector and the number of PARK and UNPARK, none where a code or number is outside its field (R183). -/
def parkScope (selector number : Byte) : Option ParkScope :=
  match codeOf selector with
  | none => none
  | some false => (handleOf number).map .handle
  | some true => (sledOf number).map .sled

/-- The handle is LIVE. -/
def State.isLive (s : State) (h : Handle) : Bool :=
  match s.allot h with
  | none => false
  | some r => r.tag == .live

/-- The records a PARK or an UNPARK acts on, in order: for a handle the record and its partner, for a sled each LIVE
record of the list followed by its partner (R151, R156). -/
def State.parkTargets (s : State) : ParkScope → List Handle
  | .handle h => s.withPartner h
  | .sled d => ((s.sled d).handles.filter s.isLive).flatMap s.withPartner

/-! ## PARK (R149 to R151) -/

/-- The grant state a park gives a record by its grant state and its sled's link state, where no entry is placed; a
SETTLED or HELD record on a LINKED or SILENT sled has its PARK placed instead (R150). -/
def parkedState (g : GrantState) (link : Link) : Option GrantState :=
  match g, link with
  | .settled, .lost | .held, .lost => some .parking
  | .settled, .idle | .held, .idle => some .parked
  | .changing, .linked | .changing, .silent | .changing, .lost => some .parkPending
  | .unlinked, _ => some .parked
  | .fallen, .lost => some .parking
  | _, _ => none

/-- The park of one record (R150). -/
def State.parkRecord (h : Handle) (s : State) : State :=
  match s.allot h with
  | none => s
  | some r =>
    if r.grant.ready && s.reachable r.sled then s.place h .park .parking
    else
      match parkedState r.grant (s.sled r.sled).link with
      | some g => s.setGrant h g
      | none => s

/-- The grant state of a handle. -/
def State.grantOf (s : State) (h : Handle) : Option GrantState := (s.allot h).map (·.grant)

/-- The park of one record, with the invocation a park request makes (R69; log 13), and whether its grant state
changed. -/
def State.parkStep (acc : State × Bool) (h : Handle) : State × Bool :=
  let t := acc.1.parkRecord h
  (t.invoke h, acc.2 || t.grantOf h != acc.1.grantOf h)

/-- The checks of PARK beyond FORMAT (R149). -/
def State.checkPark (s : State) : ParkScope → Except Detail Unit
  | .handle h =>
    match s.allot h with
    | none => .error .handleFree
    | some r => need (r.tag == .live) .retiring
  | .sled d => need ((s.sled d).link != .unplaced) .sledUnplaced

/-- PARK judged and applied: ALREADY when no record changed its grant state (R149). -/
def judgePark (selector number : Byte) (s : State) : Verdict :=
  match parkScope selector number with
  | none => .refused .badNumber
  | some scope =>
    .ofChecks (s.checkPark scope) fun _ =>
      let r := (s.parkTargets scope).foldl State.parkStep (s, false)
      .done (!r.2) [] r.1

/-- The meaning of PARK. -/
def execPark (selector number : Byte) (s : State) : Host.Outcome State Fault Refusal :=
  .next (takeCommand 0x0B#8 [selector, number] (judgePark selector number) s)

/-! ## UNPARK (R156, R157) -/

/-- The state change of an UNPARK on one record (R156), and whether it changed. -/
def State.unparkRecord (h : Handle) (s : State) : State × Bool :=
  match s.allot h with
  | none => (s, false)
  | some r =>
    match r.grant with
    | .parked => (s.unparkParked h, true)
    | .parking => if r.wakeAfter then (s, false) else (s.putAllot h { r with wakeAfter := true }, true)
    | .parkPending => (s.setGrant h .changing, true)
    | .unlinked | .changing | .settled | .held | .fallen => (s, false)

/-- The state change of one record of an UNPARK, collecting the handles changed. -/
def State.unparkStep (acc : State × List Handle) (h : Handle) : State × List Handle :=
  let r := acc.1.unparkRecord h
  (r.1, if r.2 then acc.2 ++ [h] else acc.2)

/-- An unpark request on a list of records: all state changes first, then the dispatcher for each changed record in
ascending handle order (R156). Answers whether any record changed. -/
def State.unparkAll (l : List Handle) (s : State) : State × Bool :=
  let r := l.foldl State.unparkStep (s, [])
  (r.1.invokeAll ((List.finRange 160).filter fun h => decide (h ∈ r.2)), !r.2.isEmpty)

/-- The records an UNPARK acts on: none for a RETIRING record named by its handle (R156). -/
def State.unparkTargets (s : State) : ParkScope → List Handle
  | .handle h => if s.isLive h then s.withPartner h else []
  | .sled d => s.parkTargets (.sled d)

/-- The checks of UNPARK beyond FORMAT: as PARK's, but a RETIRING record is not refused (R156). -/
def State.checkUnpark (s : State) : ParkScope → Except Detail Unit
  | .handle h => need (s.allot h).isSome .handleFree
  | .sled d => need ((s.sled d).link != .unplaced) .sledUnplaced

/-- UNPARK judged and applied: ALREADY when no record changed (R156). -/
def judgeUnpark (selector number : Byte) (s : State) : Verdict :=
  match parkScope selector number with
  | none => .refused .badNumber
  | some scope =>
    .ofChecks (s.checkUnpark scope) fun _ =>
      let r := s.unparkAll (s.unparkTargets scope)
      .done (!r.2) [] r.1.serveRequests

/-- The meaning of UNPARK. -/
def execUnpark (selector number : Byte) (s : State) : Host.Outcome State Fault Refusal :=
  .next (takeCommand 0x0C#8 [selector, number] (judgeUnpark selector number) s)

/-- The wake-on-demand test and the unpark request it hands over: a PARKED record whose flag is set and which is
deferred is unparked with its partner (R94, R159). A partner that is PARKING has its wake-after-park flag set, as an UNPARK
of the record sets it (R156); R159 leaves open whether a deferred report may (log 24). -/
def State.wakeOnDemand (h : Handle) (deferred : Bool) (s : State) : State :=
  match s.allot h with
  | none => s
  | some r =>
    if r.grant = .parked && r.wake && deferred then (s.unparkAll (s.unparkTargets (.handle h))).1 else s

end Sys2Proof.Machine
end

