-- ==== Sys2Proof/Machine/Uplink.lean ====
section
/-! DEFINITION. The uplink events (chapters 5, 6 and 7): JOIN, REPORT and ACK. -/

namespace Sys2Proof.Machine

/-! ## Taking a frame (R115, R120) -/

/-- A REPORT or ACK taken from a LINKED or SILENT sled: LINKED, silence count 0, welcome answered (R120). -/
def State.hear (d : SledNo) (s : State) : State :=
  s.updSled d fun r => { r with link := .linked, silence := 0, answered := true }

/-- A JOIN that changes no link state: the silence count of a LINKED sled becomes 0 (R116, R118, R120). -/
def State.hearJoin (d : SledNo) (s : State) : State :=
  if (s.sled d).link = .linked then s.updSled d fun r => { r with silence := 0 } else s

/-! ## JOIN (R115 to R119, R194) -/

/-- The channels of a sled that no living record covers: the park mask of a WELCOME (R119). -/
def State.parkMask (s : State) (d : SledNo) (channels : Nat) : ChannelMask :=
  BitVec.ofNat 4 (2 ^ channels - 1)
    &&& ~~~((s.sled d).handles.foldl
      (fun m h =>
        match s.allot h with
        | none => m
        | some r => m ||| r.mask)
      (0 : ChannelMask))

/-- A record at a join, before its WELCOME entry: its demand absent (R93) and its unacknowledged placements 0 (R66). -/
def Allotment.joined (r : Allotment) : Allotment := { r with demand := none, unacked := 0 }

/-- The WELCOME entry of one record (R119), by the first row that matches it. A GRANT carries the record's exposure
within the ceiling, and the highest unacknowledged keeps the larger value (R68). -/
def State.welcomeEntry (s : State) (h : Handle) : State :=
  match s.allot h with
  | none => s
  | some r =>
    if r.tag = .retiring then s.place h .release .changing
    else
      match r.grant with
      | .parked => (s.putAllot h (r.level r.idle)).place h .park .parking
      | .parking | .parkPending => s.place h .park .parking
      | .unlinked | .fallen | .changing | .settled | .held =>
        (s.putAllot h { r with highest := max r.highest r.exposure }).place h
          (.grant (min r.exposure r.ceiling)) .changing

/-- Build the WELCOME of a join at the tail of the queue, and hand it one entry per living record (R119, R140). -/
def State.welcome (d : SledNo) (channels : Nat) (s : State) : State :=
  let m := s.parkMask d channels
  (s.sled d).handles.foldl State.welcomeEntry
    (s.updStation (stationOf d) fun st => { st with queue := st.queue ++ [⟨d, .welcome m, []⟩] })

/-- A join (R117): the link state and counters, demands absent, the WELCOME, the invocations, the request (R194). -/
def State.link (d : SledNo) (channels : Nat) (s : State) : State :=
  let s1 := s.updSled d fun r =>
    { r with link := .linked, silence := 0, fallbacks := 0, elapsed := false, answered := false }
  let handles := (s.sled d).handles
  let s2 := handles.foldl (fun s h => s.modAllot h Allotment.joined) s1
  ((s2.welcome d channels).invokeAll handles).requestNormalFor d

/-- The reset of a record at a rejoin: every record that is not PARKED has its grant fields set to idle and its
restatements to 0 (R118 step 2). -/
def Allotment.rejoined (r : Allotment) : Allotment :=
  if r.grant = .parked then r else { r.level r.idle with restatements := 0 }

/-- The exposure X of a sled's zone. -/
def State.sledX (s : State) (d : SledNo) : Nat :=
  match s.zoneOfSled d with
  | none => 0
  | some z => (s.zone z).x

/-- A rejoin (R118): the waiting frame dropped, the grant fields reset, then a join, then one retry if X fell. -/
def State.rejoin (d : SledNo) (channels : Nat) (s : State) : State :=
  let s1 := s.dropFrames d
  let s2 := (s.sled d).handles.foldl (fun s h => s.modAllot h Allotment.rejoined) s1
  (s2.link d channels).retryIf (decide (s2.sledX d < s.sledX d)) (s.zoneOfSled d)

/-- A refused JOIN (R116). -/
def State.refuseJoin (d : SledNo) (s : State) : State := (s.raiseSled d .refused).hearJoin d

/-- A JOIN delivered to the sled table (R115): refused, taken as a join or a rejoin, or taken as a repeat. -/
def takeJoin (d : SledNo) (channels : Byte) (s : State) : State :=
  match (s.sled d).placement with
  | none => s.refuseJoin d
  | some p =>
    if p.channels ≠ channels.toNat then s.refuseJoin d
    else
      match (s.sled d).link with
      | .unplaced => s.refuseJoin d
      | .idle | .lost => (s.link d p.channels).serveRequests
      | .linked | .silent =>
        if (s.sled d).answered then (s.rejoin d p.channels).serveRequests else s.hearJoin d

/-- The meaning of JOIN. -/
def execJoin (d : SledNo) (channels : Byte) (s : State) : Host.Outcome State Fault Refusal :=
  .next (unlessReset (takeJoin d channels) s)

/-! ## REPORT (R88 to R97) -/

/-- The demand of one living record written, with its deadband test (R89 to R92). DESIGN CHOICE (log 26): while a
recompute of the zone is in service too, the test compares with demand used as it stands, not with the snapshot's
demand. -/
def State.assessDemand (h : Handle) (covered : List Triple) (s : State) : State :=
  match s.allot h with
  | none => s
  | some r =>
    match s.zoneOf r with
    | none => s
    | some z =>
      let demand := r.demandFrom (s.zone z).ramp covered
      let s1 := s.putAllot h { r with demand := some demand }
      if r.testable && deadbandPasses (s.zone z).deadband demand r.demandUsed then s1.requestNormal z else s1

/-- One living record of the reporting sled: demand, deadband test, wake-on-demand test (R88 step 2, R94). -/
def State.assessRecord (ts : List Triple) (s : State) (h : Handle) : State :=
  match s.allot h with
  | none => s
  | some r =>
    let covered := coveredTriples r.mask ts
    (s.assessDemand h covered).wakeOnDemand h (covered.any (·.deferred))

/-- The own thermal state of a report (R96, R97). -/
def State.assessThermal (d : SledNo) (ts : List Triple) (s : State) : State :=
  match sledTemperature ts with
  | some t => s.setOwn d (s.assessor.evaluate t (s.sled d).own)
  | none => (s.raiseSled d .sensor).setOwn d (s.sled d).own.onFault

/-- The assessment of a report whose count matches, in the order of R88. -/
def State.assess (d : SledNo) (ts : List Triple) (s : State) : State :=
  let s1 := s.updSled d fun r => { r with report := some ts }
  ((s1.sled d).handles.foldl (State.assessRecord ts) s1).assessThermal d ts

/-- The count of triples is the placed channel count (R88). -/
def State.countMatches (s : State) (d : SledNo) (n : Nat) : Bool :=
  (s.sled d).placement.any fun p => p.channels == n

/-- A REPORT delivered to the sled table (R88, R115, R120): ignored unless the sled is LINKED or SILENT; of the wrong
count, heard but not assessed. A REPORT without 1 to 4 triples is malformed and reaches no block (R190). -/
def takeReport (d : SledNo) (ts : List Triple) (s : State) : State :=
  if oneToFour ts && s.reachable d then
    let s1 := s.hear d
    if s1.countMatches d ts.length then (s1.assess d ts).serveRequests else s1
  else s

/-- The meaning of REPORT. -/
def execReport (d : SledNo) (ts : List Triple) (s : State) : Host.Outcome State Fault Refusal :=
  .next (unlessReset (takeReport d ts) s)

/-! ## ACK (R76) -/

/-- One pair of an ACK: a handle byte above 159 names no handle of the sled's list (R190). -/
def State.takePair (d : SledNo) (s : State) (p : AckPair) : State :=
  match handleOf p.handle with
  | none => s
  | some h => s.ackPair d h p.sequence

/-- An ACK delivered to the sled table (R76, R115, R120): ignored unless the sled is LINKED or SILENT; its pairs are
taken one after another in the order carried. An ACK without 1 to 4 pairs is malformed and reaches no block (R190).
DESIGN CHOICE (log 28): the whole frame is the event of R46, so a free apportioner that a pair's handling has requested
chooses once, after the last pair. -/
def takeAck (d : SledNo) (ps : List AckPair) (s : State) : State :=
  if oneToFour ps && s.reachable d then (ps.foldl (State.takePair d) (s.hear d)).serveRequests else s

/-- The meaning of ACK. -/
def execAck (d : SledNo) (ps : List AckPair) (s : State) : Host.Outcome State Fault Refusal :=
  .next (unlessReset (takeAck d ps) s)

end Sys2Proof.Machine
end

