-- ==== Sys2Proof/Machine/Zones.lean ====
section
/-! DEFINITION. The zone budget unit (chapter 2) and the service table: SET_ZONE, READ_ZONE, SET_SERVICE, the curtail
filters. -/

namespace Sys2Proof.Machine

/-- The budget in effect (R26). -/
def budgetOf (ob kb : Nat) (taken : Bool) : Nat := if taken then min ob kb else ob

/-- Compute B afresh (R26). -/
def Zone.rebudget (r : Zone) : Zone := { r with budget := budgetOf r.ob r.kb r.taken }

/-! ## SET_ZONE (R35, R39, R40) -/

/-- The five settings of a zone as SET_ZONE checks and leaves them. -/
structure ZoneSettings where
  cb : Nat
  ob : Nat
  kb : Nat
  ramp : Nat
  deadband : Nat
  adjusted : Adjusted
deriving DecidableEq, Repr

/-- The RANGE and CONTRACT checks of SET_ZONE (R35, R39): `floorSum` as it stands at the take. -/
def checkZone (m : FaultMasks) (floorSum : Nat) (cb ob kb ramp deadband : Nat) : Except Detail ZoneSettings := do
  let (cb1, a1) ← rangeCheck m.range 0 16383 .cb cb
  let (ob1, a2) ← rangeCheck m.range 0 16383 .ob ob
  let (kb1, a3) ← rangeCheck m.range 0 16383 .kb kb
  let (r1, a4) ← rangeCheck m.range 1 255 .ramp ramp
  let a := a1 || a2 || a3 || a4
  if floorSum ≤ cb1 then return ⟨cb1, ob1, kb1, r1, deadband, ⟨a, false, false⟩⟩
  else if m.contract then return ⟨floorSum, ob1, kb1, r1, deadband, ⟨a, false, true⟩⟩
  else throw .belowFloors

/-- The effect of a SET_ZONE that passes its checks (R40). -/
def State.applyZone (z : ZoneNo) (c : ZoneSettings) (s : State) : State :=
  let s1 := s.updZone z fun r =>
    ({ r with cb := c.cb, ob := c.ob, kb := c.kb, ramp := c.ramp, deadband := c.deadband }).rebudget
  let s2 := s1.retryIf (decide ((s.zone z).budget < (s1.zone z).budget)) (some z)
  (s2.requestNormal z).serveRequests

/-- SET_ZONE judged and applied. -/
def judgeSetZone (zone : Byte) (cb ob kb : Half) (ramp deadband : Byte) (s : State) : Verdict :=
  match zoneNoOf zone with
  | none => .refused .badNumber
  | some z =>
    .ofChecks
      (checkZone s.port.masks (s.zone z).floorSum cb.toNat ob.toNat kb.toNat ramp.toNat deadband.toNat)
      fun c => verdictOf c.adjusted [] (s.applyZone z c)

/-- The meaning of SET_ZONE. -/
def execSetZone (zone : Byte) (cb ob kb : Half) (ramp deadband : Byte) (s : State) :
    Host.Outcome State Fault Refusal :=
  .next (takeCommand 0x01#8 (parameters (.setZone zone cb ob kb ramp deadband))
    (judgeSetZone zone cb ob kb ramp deadband) s)

/-! ## READ_ZONE (R41) -/

/-- The in-service flag of a zone (R41, R44). -/
def State.inService (s : State) (z : ZoneNo) : Bool := s.service.any fun v => v.zone == z

/-- READ_ZONE judged: it changes no state. -/
def judgeReadZone (zone : Byte) (s : State) : Verdict :=
  match zoneNoOf zone with
  | none => .refused .badNumber
  | some z => .done false (zoneImage z (s.inService z) (s.zone z)) s

/-- The meaning of READ_ZONE. -/
def execReadZone (zone : Byte) (s : State) : Host.Outcome State Fault Refusal :=
  .next (takeCommand 0x10#8 [zone] (judgeReadZone zone) s)

/-! ## SET_SERVICE (R48) -/

/-- The service table a SET_SERVICE carries, none where some number is above 7. -/
def serviceTable (zones : Vector Byte 16) : Option (Vector ZoneNo 16) :=
  if ∀ p : Fin 16, zones[p].toNat < 8 then some (tabulate fun p => ⟨zones[p].toNat % 8, by omega⟩) else none

/-- SET_SERVICE judged and applied: the table replaced, the pointer kept, no request raised. -/
def judgeSetService (zones : Vector Byte 16) (s : State) : Verdict :=
  match serviceTable zones with
  | none => .refused .badNumber
  | some t => .done false [] { s with table := t }

/-- The meaning of SET_SERVICE. -/
def execSetService (zones : Vector Byte 16) (s : State) : Host.Outcome State Fault Refusal :=
  .next (takeCommand 0x04#8 zones.toList (judgeSetService zones) s)

/-! ## The curtail filters (R28 to R30) -/

/-- An edge at the filter (R28, R30): the level after it becomes the candidate and the timer starts again; an edge
back to the taken level stops the timer, once a first level has been taken (log 16). -/
def Zone.edge (level : Bool) (r : Zone) : Zone :=
  if r.firstTaken && level == r.taken then { r with candidate := none, filter := .stopped }
  else { r with candidate := some level, filter := .running }

/-- CURTAIL_EDGE: the input pin moves, also while reset is held; the filter sees the edge once reset has ended. DESIGN
CHOICE (log 3): a row whose level is the one the pin already holds, which is no edge of R28, is run as an edge. -/
def curtailEdge (z : ZoneNo) (level : Bool) (s : State) : State :=
  let s1 := { s with curtailPins := s.curtailPins.set z level }
  if s.resetHeld then s1 else s1.updZone z (Zone.edge level)

/-- The meaning of CURTAIL_EDGE. -/
def execCurtailEdge (z : ZoneNo) (level : Bool) (s : State) : Host.Outcome State Fault Refusal :=
  .next (curtailEdge z level s)

/-- A taken change of a curtail line (R29): B recomputed, CURTAIL_CHANGE raised, the urgent request set, the retry
started if B rose. -/
def State.takeCurtail (z : ZoneNo) (level : Bool) (s : State) : State :=
  let s1 := s.updZone z fun r => ({ r with taken := level, firstTaken := true, filter := .stopped }).rebudget
  let s2 := (s1.raiseCurtail z).requestUrgent z
  (s2.retryIf (decide ((s.zone z).budget < (s1.zone z).budget)) (some z)).serveRequests

/-- The expiry of the persistence timer (R28, R30): the candidate is taken if it differs from the taken level, or if
no level has been taken since reset. A stopped timer does not expire (log 3). -/
def persistenceExpiry (z : ZoneNo) (s : State) : State :=
  let r := s.zone z
  match r.filter, r.candidate with
  | .running, some level =>
    if !r.firstTaken || level != r.taken then s.takeCurtail z level
    else s.updZone z fun r => { r with filter := .stopped }
  | .running, none => s.updZone z fun r => { r with filter := .stopped }
  | .stopped, _ => s

/-- The meaning of PERSISTENCE_TIMER_EXPIRY. -/
def execPersistenceTimerExpiry (z : ZoneNo) (s : State) : Host.Outcome State Fault Refusal :=
  .next (unlessReset (persistenceExpiry z) s)

end Sys2Proof.Machine
end

