-- ==== Sys2Proof/Machine/Frames.lean ====
section
/-! DEFINITION. Frames and transactions given by their bytes: REFUSED_FRAME (R182), READ_TRANSACTION (R172, R175) and
DISCARDED_FRAME (R132). -/

namespace Sys2Proof.Machine

/-- The detail of a frame fault (R182). -/
def frameDetail : FrameFault → Detail
  | .badLength => .badLength
  | .badCheck => .badCheck
  | .badCommand => .badCommand

/-- The checks and application of a management command, as its own row has them; an event that is no command changes
nothing. -/
def judgeCommand : Instr → State → Verdict
  | .setZone z cb ob kb r d => judgeSetZone z cb ob kb r d
  | .setThermal a b c d e f g h => judgeSetThermal a b c d e f g h
  | .setStation st i => judgeSetStation st i
  | .setService zs => judgeSetService zs
  | .placeSled d z c u => judgePlaceSled d z c u
  | .install t d m i p f c w k => judgeInstall t d m i p f c w k
  | .amend h n f c w k => judgeAmend h n f c w k
  | .amendTenant t m p => judgeAmendTenant t m p
  | .pair a b => judgePair a b
  | .unpair h => judgeUnpair h
  | .park k n => judgePark k n
  | .unpark k n => judgeUnpark k n
  | .retire h => judgeRetire h
  | .lookup h => judgeLookup h
  | .readSled d => judgeReadSled d
  | .readZone z => judgeReadZone z
  | .takeAttention => judgeTakeAttention
  | .setMasks r o c m => judgeSetMasks r o c m
  | .readFaults c => judgeReadFaults c
  | .restart => judgeRestart
  | .refusedFrame .. | .responseReady | .readTransaction .. | .writeWhileBusy .. | .powerOnReset | .resetEnd
  | .curtailEdge .. | .persistenceTimerExpiry .. | .recomputeCompletion | .refreshEvent .. | .goingSilent ..
  | .loss .. | .fallback .. | .transmissionStart .. | .transmissionCompletion .. | .discardedFrame .. | .join ..
  | .report .. | .ack .. | .warmTimerExpiry .. | .writeTransactionBegin .. => fun s => .done false [] s

/-- What the frame checks make of the frame the port has received (R173 step 3, R182): a FORMAT refusal, or the command
it spells (log 5). -/
def judgeFrame (s : State) : Verdict :=
  match readFrame s.port.received s.port.crc s.port.latest s.port.command with
  | .error f => .refused (frameDetail f)
  | .ok c => judgeCommand c s

/-- The command byte of a frame: its first byte, or 0x00 for a frame of no bytes (R177, R181, R191). -/
def frameCode (bytes : List Byte) : Byte := bytes.headD 0x00#8

/-- The first parameter byte of a frame: the byte after the code, where one stands before the check byte (R181, R191;
log 21). -/
def frameParameter (bytes : List Byte) : Option Byte := bytes.tail.dropLast.head?

/-- The take of a frame given by its bytes, by the state of the port as for any command (R172, R176). -/
def takeBytes (bytes : List Byte) (s : State) : State :=
  match s.port.state with
  | .responding => s.writeBusy bytes.length
  | .idle | .taking => s.takeFrame (frameCode bytes) (frameParameter bytes) bytes judgeFrame

/-- The meaning of REFUSED_FRAME. -/
def execRefusedFrame (bytes : List Byte) (s : State) : Host.Outcome State Fault Refusal :=
  .next (unlessReset (takeBytes bytes) s)

/-- The meaning of READ_TRANSACTION (R175): a transaction judged by its first byte (R172). Bytes that start with the
WRITE code are the frame of a whole WRITE transaction; with neither code, or none, the transaction is ignored (log
5). -/
def execReadTransaction (mdi : List Byte) (s : State) : Host.Outcome State Fault Refusal :=
  .next (unlessReset (runTransaction takeBytes mdi) s)

/-- An uplink frame given by its bytes: discarded where a test fails, reaching no block and counted nowhere (R132,
R190); otherwise it is the valid frame it spells (log 5). -/
def takeUplink (d : SledNo) (bytes : List Byte) (s : State) : State :=
  match decodeUplink d bytes with
  | .ok (.join e count) => takeJoin e count s
  | .ok (.report e ts) => takeReport e ts s
  | .ok (.ack e ps) => takeAck e ps s
  | .ok _ => s
  | .error _ => s

/-- The meaning of DISCARDED_FRAME. -/
def execDiscardedFrame (d : SledNo) (bytes : List Byte) (s : State) : Host.Outcome State Fault Refusal :=
  .next (unlessReset (takeUplink d bytes) s)

end Sys2Proof.Machine
end

