-- ==== Sys2Proof/Machine/Dispatch.lean ====
section
/-! DEFINITION. One arm per command. -/

namespace Sys2Proof.Machine

def exec (i : Instr) (s : State) : Host.Outcome State Fault Refusal :=
  match i with
  | .setZone z cb ob kb r d => Sys2Proof.Machine.execSetZone z cb ob kb r d s
  | .setThermal w1 w0 h1 h0 c1 c0 dw dh => Sys2Proof.Machine.execSetThermal w1 w0 h1 h0 c1 c0 dw dh s
  | .setStation st iv => Sys2Proof.Machine.execSetStation st iv s
  | .setService zs => Sys2Proof.Machine.execSetService zs s
  | .placeSled d z c u => Sys2Proof.Machine.execPlaceSled d z c u s
  | .install t d m idle peak floor ceiling w k => Sys2Proof.Machine.execInstall t d m idle peak floor ceiling w k s
  | .amend h n floor ceiling w k => Sys2Proof.Machine.execAmend h n floor ceiling w k s
  | .amendTenant t m p => Sys2Proof.Machine.execAmendTenant t m p s
  | .pair a b => Sys2Proof.Machine.execPair a b s
  | .unpair h => Sys2Proof.Machine.execUnpair h s
  | .park k n => Sys2Proof.Machine.execPark k n s
  | .unpark k n => Sys2Proof.Machine.execUnpark k n s
  | .retire h => Sys2Proof.Machine.execRetire h s
  | .lookup h => Sys2Proof.Machine.execLookup h s
  | .readSled d => Sys2Proof.Machine.execReadSled d s
  | .readZone z => Sys2Proof.Machine.execReadZone z s
  | .takeAttention => Sys2Proof.Machine.execTakeAttention s
  | .setMasks r o c m => Sys2Proof.Machine.execSetMasks r o c m s
  | .readFaults c => Sys2Proof.Machine.execReadFaults c s
  | .restart => Sys2Proof.Machine.execRestart s
  | .refusedFrame bytes => Sys2Proof.Machine.execRefusedFrame bytes s
  | .responseReady => Sys2Proof.Machine.execResponseReady s
  | .readTransaction mdi => Sys2Proof.Machine.execReadTransaction mdi s
  | .writeWhileBusy mdi => Sys2Proof.Machine.execWriteWhileBusy mdi s
  | .powerOnReset => Sys2Proof.Machine.execPowerOnReset s
  | .resetEnd => Sys2Proof.Machine.execResetEnd s
  | .curtailEdge z level => Sys2Proof.Machine.execCurtailEdge z level s
  | .persistenceTimerExpiry z => Sys2Proof.Machine.execPersistenceTimerExpiry z s
  | .recomputeCompletion => Sys2Proof.Machine.execRecomputeCompletion s
  | .refreshEvent st => Sys2Proof.Machine.execRefreshEvent st s
  | .goingSilent d => Sys2Proof.Machine.execGoingSilent d s
  | .loss d => Sys2Proof.Machine.execLoss d s
  | .fallback d => Sys2Proof.Machine.execFallback d s
  | .transmissionStart st => Sys2Proof.Machine.execTransmissionStart st s
  | .transmissionCompletion st => Sys2Proof.Machine.execTransmissionCompletion st s
  | .discardedFrame d bytes => Sys2Proof.Machine.execDiscardedFrame d bytes s
  | .join d count => Sys2Proof.Machine.execJoin d count s
  | .report d ts => Sys2Proof.Machine.execReport d ts s
  | .ack d ps => Sys2Proof.Machine.execAck d ps s
  | .warmTimerExpiry d => Sys2Proof.Machine.execWarmTimerExpiry d s
  | .writeTransactionBegin mdi => Sys2Proof.Machine.execWriteTransactionBegin s mdi

end Sys2Proof.Machine
end

