-- ==== Sys2Proof/Safety.lean ====
section
/-! DEFINITION. What always holds of the block: the laws the manual gives its state, in the terms the statements use,
and the words in which a statement says what a command answered and what it left alone. -/

namespace Sys2Proof.Machine

/-! ## The ports and the outputs -/

/-- ATTENTION is active exactly when an unmasked item is pending (R165), and released while RESET_N is low (R187). -/
def State.AttentionLaw (s : State) : Prop := s.attentionPin = (!s.resetHeld && s.attention.anyUnmasked)

/-- READY is active exactly while the port is IDLE or TAKING (section 10.1, R173, R174), and inactive while RESET_N is
low (R187). -/
def State.ReadyLaw (s : State) : Prop := s.readyPin = (!s.resetHeld && s.port.state != .responding)

/-- A response is in building exactly while the port is RESPONDING (section 10.1, R173, R174). -/
def State.BuildingLaw (s : State) : Prop := s.port.building.isSome = (s.port.state == .responding)

/-- While RESET_N is low the port is IDLE, its power-on state (R187). -/
def State.HeldLaw (s : State) : Prop := s.resetHeld = true → s.port.state = .idle

/-! ## The allotment table -/

/-- The free handle stack and the sleds' lists of allotments agree with the table (R6, R110), and a living record's
sled is placed (R2, R112). -/
structure State.TableLaw (s : State) : Prop where
  stackNodup : s.stack.Nodup
  stackFree : ∀ h : Handle, h ∈ s.stack ↔ s.allot h = none
  listAscending : ∀ d : SledNo, (s.sled d).handles.Pairwise (· < ·)
  listLiving : ∀ (d : SledNo) (h : Handle), h ∈ (s.sled d).handles ↔ ∃ r, s.allot h = some r ∧ r.sled = d
  sledPlaced : ∀ (h : Handle) (r : Allotment), s.allot h = some r → (s.sled r.sled).placement.isSome

/-- The contract of one record is in order (R2). -/
def Allotment.InOrder (r : Allotment) : Prop :=
  r.idle < r.peak ∧ r.idle ≤ r.floor ∧ r.floor ≤ r.ceiling ∧ r.ceiling ≤ r.peak ∧ 1 ≤ r.weight ∧ r.weight ≤ 15

/-- Every living record's contract is in order (R2). -/
def State.ContractLaw (s : State) : Prop := ∀ (h : Handle) (r : Allotment), s.allot h = some r → r.InOrder

/-- If allotment A names B as partner, then B names A, both are LIVE, on different sleds of one zone, with equal idle,
peak, floor, ceiling and weight (R15). -/
def State.PairLaw (s : State) : Prop :=
  ∀ (h k : Handle) (r : Allotment), s.allot h = some r → r.partner = some k →
    ∃ q, s.allot k = some q ∧ q.partner = some h ∧ r.tag = .live ∧ q.tag = .live ∧ r.sled ≠ q.sled ∧
      s.zoneOf r = s.zoneOf q ∧ r.sameContract q = true

/-- The masks of a sled's allotments are non-empty, within its channel count and pairwise disjoint (R7). -/
structure State.MaskLaw (s : State) : Prop where
  within : ∀ (h : Handle) (r : Allotment) (p : Placement), s.allot h = some r →
    (s.sled r.sled).placement = some p → r.mask ≠ 0 ∧ r.mask &&& ~~~(channelsBelow p.channels) = 0
  disjoint : ∀ (h k : Handle) (r q : Allotment), s.allot h = some r → s.allot k = some q → h ≠ k →
    r.sled = q.sled → r.mask &&& q.mask = 0

/-- The values in flight are counted: a sent grant is at most the highest unacknowledged (R70, R81), and at most 15
placements are unacknowledged (R66). -/
def State.FlightLaw (s : State) : Prop :=
  ∀ (h : Handle) (r : Allotment), s.allot h = some r → r.sent ≤ r.highest ∧ r.unacked ≤ 15

/-! ## The zones -/

/-- The exposures of the living records of a zone, added up (R31). -/
def State.exposureSum (s : State) (z : ZoneNo) : Nat := ((s.zoneHandles z).map fun h => exposureOf (s.allot h)).sum

/-- The floors of the living records of a zone, added up (R34). -/
def State.floorTotal (s : State) (z : ZoneNo) : Nat :=
  ((s.zoneHandles z).map fun h => ((s.allot h).map (·.floor)).getD 0).sum

/-- X is the sum of the exposures (R31); the floor sum is the sum of the floors and at most CB (R34); the count is the
number of living records (R25). CB stays within its range (section 2.1). -/
structure State.SumLaw (s : State) : Prop where
  exposure : ∀ z : ZoneNo, (s.zone z).x = s.exposureSum z
  floors : ∀ z : ZoneNo, (s.zone z).floorSum = s.floorTotal z
  contract : ∀ z : ZoneNo, (s.zone z).floorSum ≤ (s.zone z).cb ∧ (s.zone z).cb ≤ 16383
  count : ∀ z : ZoneNo, (s.zone z).count = (s.zoneHandles z).length

/-- B is OB, or min(OB, KB) while the curtail line is taken as active (R26). -/
def State.BudgetLaw (s : State) : Prop :=
  ∀ z : ZoneNo, (s.zone z).budget = if (s.zone z).taken then min (s.zone z).ob (s.zone z).kb else (s.zone z).ob

/-- While the apportioner is free no request waits: one raised while it is free is served at once (R45). -/
def State.QuietLaw (s : State) : Prop :=
  s.service = none → ∀ z : ZoneNo, (s.zone z).normalReq = false ∧ (s.zone z).urgentReq = false

/-! ## The settings -/

/-- The thresholds and derates in force are in range and in order (R95, R105). -/
def Assessor.Legal (a : Assessor) : Prop :=
  (a.warmOff < a.warmOn ∧ a.hotOff < a.hotOn ∧ a.criticalOff < a.criticalOn) ∧
    (a.warmOn < a.hotOn ∧ a.hotOn < a.criticalOn) ∧ (a.warmOff < a.hotOff ∧ a.hotOff < a.criticalOff) ∧
    a.criticalOn ≤ 254 ∧ (1 ≤ a.warmDerate ∧ a.warmDerate ≤ 100) ∧ (1 ≤ a.hotDerate ∧ a.hotDerate ≤ 100)

/-- The settings stay within their ranges: zones (section 2.1), the assessor (R95, R105), stations (section 7.5) and
channel counts (R111). CB is with the floor sum, in SumLaw. -/
structure State.SettingsLaw (s : State) : Prop where
  zones : ∀ z : ZoneNo, (s.zone z).ob ≤ 16383 ∧ (s.zone z).kb ≤ 16383 ∧
    (1 ≤ (s.zone z).ramp ∧ (s.zone z).ramp ≤ 255) ∧ (s.zone z).deadband ≤ 255
  assessor : s.assessor.Legal
  intervals : ∀ st : StationNo, 2 ≤ (s.station st).interval ∧ (s.station st).interval ≤ 255
  pending : ∀ (st : StationNo) (p : Nat), (s.station st).pendingInterval = some p →
    2 ≤ p ∧ p ≤ 255 ∧ p ≠ (s.station st).interval
  channels : ∀ (d : SledNo) (p : Placement), (s.sled d).placement = some p → 1 ≤ p.channels ∧ p.channels ≤ 4

/-! ## The sleds and the stations -/

/-- The link states and their counters agree (section 6.4, R121, R125). -/
structure State.LinkLaw (s : State) : Prop where
  unplaced : ∀ d : SledNo, (s.sled d).link = .unplaced ↔ (s.sled d).placement = none
  linked : ∀ d : SledNo, (s.sled d).link = .linked → (s.sled d).silence ≤ 2
  silent : ∀ d : SledNo, (s.sled d).link = .silent → 3 ≤ (s.sled d).silence ∧ (s.sled d).silence ≤ 7
  fallback : ∀ d : SledNo, (s.sled d).fallbacks ≤ 5 ∧ ((s.sled d).elapsed = true ↔ (s.sled d).fallbacks = 5)
  notLost : ∀ d : SledNo, (s.sled d).link ≠ .lost → (s.sled d).fallbacks = 0

/-- An upstream is a placed sled, no chain has more than 3 hops, and so none has a cycle (R112). -/
structure State.ChainLaw (s : State) : Prop where
  upstreamPlaced : ∀ d u : SledNo, s.upstreamOf d = some u → u ≠ d ∧ (s.sled u).placement.isSome
  depth : ∀ d : SledNo, s.hopsUp d ≤ 3

/-- Every sled's effective state is the larger of its own state and one below its upstream's effective state (R98). -/
def State.EffectiveLaw (s : State) : Prop := ∀ d : SledNo, (s.sled d).eff = s.effectiveFor d

/-- A waiting frame belongs to its station and to a sled that is LINKED or SILENT, and its entries stand in ascending
handle order, each the latest entry of a living record of the sled (R130, R135, R139, R143). -/
structure State.FrameLawful (s : State) (st : StationNo) (f : Frame) : Prop where
  station : stationOf f.sled = st
  reachable : s.reachable f.sled = true
  ascending : (f.entries.map (·.handle)).Pairwise (· < ·)
  latest : ∀ e ∈ f.entries, ∃ r, s.allot e.handle = some r ∧ r.sled = f.sled ∧ r.latestEntry e.handle = some e

/-- Each queue holds at most one waiting frame per sled, and every waiting frame is lawful (R135). -/
structure State.QueueLaw (s : State) : Prop where
  oneFrame : ∀ st : StationNo, ((s.station st).queue.map (·.sled)).Nodup
  lawful : ∀ (st : StationNo) (f : Frame), f ∈ (s.station st).queue → s.FrameLawful st f

/-- The values that the grant states fix: an UNLINKED record stands at idle, a FALLEN one at its acknowledged grant,
the latest entry of a SETTLED or HELD one is acknowledged, no placement of an UNLINKED, SETTLED, HELD or PARKED one is
unacknowledged, a PARKING record of a LINKED or SILENT sled is LIVE with its PARK alone unacknowledged, and a RETIRING
record in PARKED stands at idle (sections 1.4 and 4.1, R5, R18, R66, R77, R126, R154). -/
def State.StandingLaw (s : State) : Prop :=
  ∀ (h : Handle) (r : Allotment), s.allot h = some r →
    (r.grant = .unlinked → r.acked = r.idle ∧ r.highest = r.idle) ∧
      (r.grant = .fallen → r.highest = r.acked) ∧
      (r.grant = .settled ∨ r.grant = .held → r.acked = r.sent ∧ r.highest = r.sent) ∧
      (r.grant = .unlinked ∨ r.grant = .settled ∨ r.grant = .held ∨ r.grant = .parked → r.unacked = 0) ∧
      (r.grant = .parking → s.reachable r.sled = true → r.tag = .live ∧ r.unacked ≤ 1) ∧
      (r.tag = .retiring → r.grant = .parked → r.acked = r.idle ∧ r.highest = r.idle)

/-- A power value stands from a record's idle to its peak. -/
def Allotment.InSpan (r : Allotment) (v : Nat) : Prop := r.idle ≤ v ∧ v ≤ r.peak

/-- The runtime fields stay in their ranges (section 1.3): demand, demand used, the grants and the fallback floor from
idle to peak, the target from idle to the ceiling in force (R3, R13). -/
structure Allotment.RuntimeInRange (r : Allotment) : Prop where
  demand : ∀ v : Nat, r.demand = some v → r.InSpan v
  demandUsed : ∀ v : Nat, r.demandUsed = some v → r.InSpan v
  target : r.idle ≤ r.target ∧ r.target ≤ r.ceiling
  sent : r.InSpan r.sent
  acked : r.InSpan r.acked
  highest : r.InSpan r.highest
  fallbackFloor : r.InSpan r.fallbackFloor
  latest : ∀ w wf f : Nat, r.latest = .grant w wf f → (1 ≤ w ∧ w ≤ 255) ∧ (1 ≤ wf ∧ wf ≤ 255) ∧ r.InSpan f

/-- Every living record's runtime fields are in range, its restatements too: at most 4, and below 4 while its sled is
LINKED or SILENT (R122). -/
def State.RangeLaw (s : State) : Prop :=
  ∀ (h : Handle) (r : Allotment), s.allot h = some r →
    r.RuntimeInRange ∧ r.restatements ≤ 4 ∧ (s.reachable r.sled = true → r.restatements < 4)

/-- The snapshot of the recompute in service: its records in ascending handle order with their contracts in order and
their demands in range, the members of a pair of one idle, and derates of at most 100 (R15, R49, R105); and every record
that carries the snapshot mark among them, in the zone in service (R22); while the apportioner is free no record is
marked. -/
structure State.SnapshotLaw (s : State) : Prop where
  ascending : ∀ v : Service, s.service = some v → (v.snaps.map (·.handle)).Pairwise (· < ·)
  contracts : ∀ (v : Service) (e : Snap), s.service = some v → e ∈ v.snaps →
    e.idle < e.peak ∧ e.idle ≤ e.floor ∧ e.floor ≤ e.ceiling ∧ e.ceiling ≤ e.peak ∧ 1 ≤ e.weight ∧ e.weight ≤ 15 ∧
      ∀ u : Nat, e.demand = some u → e.idle ≤ u ∧ u ≤ e.peak
  pairs : ∀ (v : Service) (e f : Snap), s.service = some v → e ∈ v.snaps → f ∈ v.snaps →
    e.partner = some f.handle → f.partner = some e.handle → f.idle = e.idle
  derates : ∀ v : Service, s.service = some v → v.warmDerate ≤ 100 ∧ v.hotDerate ≤ 100
  marked : ∀ (h : Handle) (r : Allotment), s.allot h = some r → r.mark = true →
    ∃ v : Service, s.service = some v ∧ s.zoneOf r = some v.zone ∧
      ∃ e ∈ v.snaps, e.handle = h ∧ e.idle = r.idle ∧ e.peak = r.peak

/-- The laws of the allotment records and the zone sums together. -/
structure State.RecordLaws (s : State) : Prop where
  table : s.TableLaw
  contracts : s.ContractLaw
  pairs : s.PairLaw
  masks : s.MaskLaw
  flight : s.FlightLaw
  standing : s.StandingLaw
  sums : s.SumLaw

/-! ## Running a command -/

/-- The machine takes commands at the management port: RESET_N is high and no response is in building (section
10.1). -/
def State.Accepting (s : State) : Prop := s.resetHeld = false ∧ s.port.state ≠ .responding

/-- The command runs to a next state of which `P` holds. -/
def Completes (c : Instr) (s : State) (P : State → Prop) : Prop := ∃ t, exec c s = .next t ∧ P t

/-- The take discards an unread response (R173 step 1). -/
def State.losesResponse (s : State) : Bool := s.port.response.isSome && !s.port.responseRead

/-- The sticky flags once step 1 of the take is done: RESPONSE_LOST where an unread response was discarded (R173). -/
def State.takenFlags (s : State) : StickyFlags :=
  { s.port.flags with responseLost := s.port.flags.responseLost || s.losesResponse }

/-- A command taken in `s` has been answered in `t`: the response in building, the port RESPONDING with READY
inactive, the sticky flags `flags`; the fault masks and the last refused record are kept (R173, R177, R180, R181). -/
def State.Answers (s t : State) (code : Byte) (result : Result) (payload : List Byte) (flags : StickyFlags) : Prop :=
  t.port.building = some ⟨code, result, payload⟩ ∧ t.port.state = .responding ∧ t.readyPin = false ∧
    t.port.flags = flags ∧ t.port.masks = s.port.masks ∧ t.port.lastRefused = s.port.lastRefused

/-- Answered DONE (R177). -/
def State.AnswersDone (s t : State) (code : Byte) (already : Bool) (payload : List Byte) : Prop :=
  s.Answers t code (.done already) payload s.takenFlags

/-- Answered ADJUSTED in the classes `a`, whose flags are set, or DONE where it is empty (R177, R180). -/
def State.AnswersApplied (s t : State) (code : Byte) (a : Adjusted) (payload : List Byte) : Prop :=
  s.Answers t code (if a.any then .adjusted a else .done false) payload (s.takenFlags.raiseAdjusted a)

/-- Nothing outside the management port changed. -/
def State.SameButPort (s t : State) : Prop :=
  t = { s with port := t.port, readyPin := t.readyPin, mdo := t.mdo }

/-- Refused: nothing outside the port changed, the response carries the detail, the flag of its class is set and the
last refused record written (R178, R180, R181). -/
def State.Refused (s t : State) (code : Byte) (parameter : Option Byte) (d : Detail) : Prop :=
  s.SameButPort t ∧ t.port.building = some ⟨code, .refused d, []⟩ ∧ t.port.state = .responding ∧
    t.readyPin = false ∧ t.port.masks = s.port.masks ∧ t.port.flags = s.takenFlags.raise d.faultClass ∧
    t.port.lastRefused = some ⟨code, parameter, d⟩

/-- The normal request of a zone has been raised in an event from `s` to `t`: it is pending, or the apportioner, free
before the event, has taken the zone (R45, R46). -/
def State.RaisedNormal (s t : State) (z : ZoneNo) : Prop :=
  (t.zone z).normalReq = true ∨ (s.service = none ∧ ∃ v, t.service = some v ∧ v.zone = z)

/-- The urgent request of a zone has been raised in an event from `s` to `t` (R45, R46). -/
def State.RaisedUrgent (s t : State) (z : ZoneNo) : Prop :=
  (t.zone z).urgentReq = true ∨ (s.service = none ∧ ∃ v, t.service = some v ∧ v.zone = z)

/-- The contract fields of a record, its tag and its pairing are those of another (sections 1.1, 1.2). -/
def Allotment.SameContractFields (r q : Allotment) : Prop :=
  q.tag = r.tag ∧ q.tenant = r.tenant ∧ q.sled = r.sled ∧ q.mask = r.mask ∧ q.idle = r.idle ∧ q.peak = r.peak ∧
    q.floor = r.floor ∧ q.ceiling = r.ceiling ∧ q.weight = r.weight ∧ q.wake = r.wake ∧ q.partner = r.partner

/-- Two records that agree but for the snapshot mark, which the apportioner sets when it takes a zone (R22). -/
def Allotment.SameButMark (r q : Allotment) : Prop := q = { r with mark := q.mark }

/-- The place of a handle holds the same record but for its snapshot mark. -/
def State.SameRecord (s t : State) (h : Handle) : Prop :=
  match s.allot h with
  | none => t.allot h = none
  | some r => ∃ q, t.allot h = some q ∧ r.SameButMark q

/-- The contract of a handle stands: it stays FREE, or its record keeps its contract fields. -/
def State.SameContract (s t : State) (h : Handle) : Prop :=
  match s.allot h with
  | none => t.allot h = none
  | some r => ∃ q, t.allot h = some q ∧ r.SameContractFields q

/-- Two zone records that agree in every field but X and the two requests. -/
def Zone.SameButSums (v w : Zone) : Prop :=
  w = { v with x := w.x, normalReq := w.normalReq, urgentReq := w.urgentReq }

/-- A zone of `t` agrees with that of `s` in every field but X and the two requests, its floor sum and its count less
by those of its records freed in between (R20, R25, R34). -/
def State.SameButFreed (s t : State) (z : ZoneNo) : Prop :=
  let freed := (s.zoneHandles z).filter fun h => (t.allot h).isNone
  (t.zone z).floorSum + (freed.map fun h => ((s.allot h).map (·.floor)).getD 0).sum = (s.zone z).floorSum ∧
    (t.zone z).count + freed.length = (s.zone z).count ∧
    Zone.SameButSums { s.zone z with floorSum := (t.zone z).floorSum, count := (t.zone z).count } (t.zone z)

/-- Two stations that agree in every field but the queue. -/
def Station.SameButQueue (v w : Station) : Prop := w = { v with queue := w.queue }

/-- Only grants moved: allotment records, zone records and stations may differ, nothing else. -/
def State.GrantsOnly (s t : State) : Prop :=
  t = { s with allotments := t.allotments, zones := t.zones, stations := t.stations }

/-! ## The ce in force -/

/-- The ce in force of a record, by its ceiling and floor, the effective state of its sled and the derates as they stand:
idle where the sled is CRITICAL, and otherwise the derated ceiling, truncated and never below the floor (R51, R60). -/
def State.ceInForce (s : State) (r : Allotment) : Nat :=
  match (s.sled r.sled).eff with
  | .normal => max r.floor r.ceiling
  | .warm => max r.floor (r.ceiling * s.assessor.warmDerate / 100)
  | .hot => max r.floor (r.ceiling * s.assessor.hotDerate / 100)
  | .critical => r.idle

/-! ## Raises -/

/-- The next value of a record (R71, R73): one ramp step above its sent grant, twice R below the knee, and not past the
target; its sent grant where the target is not above it. -/
def Allotment.stepUp (ramp : Nat) (r : Allotment) : Nat :=
  if r.sent < r.target then
    min r.target (r.sent + if r.sent < r.floor + (r.ceiling - r.floor) / 2 then 2 * ramp else ramp)
  else r.sent

/-- The window of a value of a record (R67). -/
def Allotment.window (r : Allotment) (v : Nat) : Nat := max 1 (255 * (v - r.idle) / (r.peak - r.idle))

/-- The record once a GRANT of a value has been placed for it, in CHANGING (R66). -/
def Allotment.granted (v : Nat) (r : Allotment) : Allotment :=
  { r with
    grant := .changing, sent := v, highest := max r.highest v, sequence := r.sequence + 1, restatements := 0
    unacked := r.unacked + 1, fallbackFloor := max r.fallbackFloor r.floor
    latest := .grant (r.window v) (r.window r.floor) r.floor }

/-- The record once its latest GRANT, of floor `f`, has been acknowledged, in a grant state (R77). -/
def Allotment.acknowledged (f : Nat) (g : GrantState) (r : Allotment) : Allotment :=
  { r with
    acked := r.sent, highest := r.sent, restatements := 0, unacked := 0, fallbackFloor := f, grant := g }

/-- A raise of the record `r` was tested, and left `u`: raised by its step, or HELD (R72, R73). -/
def Allotment.RaiseTested (ramp : Nat) (r u : Allotment) : Prop :=
  (r.granted (r.stepUp ramp)).SameButMark u ∨ Allotment.SameButMark { r with grant := .held } u

/-- No HELD record of a zone has headroom left untried: each LIVE one that may be sent an entry has its target above its
sent grant, and the raise of one that is unpaired, or of a pair whose partner is SETTLED or HELD and reachable, does not
pass with X and B as they stand (R72 to R74). -/
def State.HeadroomTried (s : State) (z : ZoneNo) : Prop :=
  let v := s.zone z
  ∀ (h : Handle) (r : Allotment), s.allot h = some r → s.zoneOf r = some z → r.tag = .live → r.grant = .held →
    s.mayPlace r = true →
    r.sent < r.target ∧ (r.partner = none → v.budget + r.exposure < v.x + r.stepUp v.ramp) ∧
      ∀ (k : Handle) (q : Allotment), r.partner = some k → s.allot k = some q →
        q.grant = .settled ∨ q.grant = .held → s.reachable q.sled = true →
        v.budget + r.exposure + q.exposure < v.x + r.stepUp v.ramp + q.stepUp v.ramp

/-- The headroom retry of a zone was run in an event from `s` to `t` (R74): every record HELD before it with its target
above its sent grant was tested, and those that pass are raised. -/
def State.Retried (s t : State) (z : ZoneNo) : Prop :=
  t.HeadroomTried z ∧
    ∀ (h : Handle) (r u : Allotment), s.allot h = some r → t.allot h = some u → u.partner = r.partner →
      s.zoneOf r = some z → r.tag = .live → r.grant = .held → s.mayPlace r = true → r.sent < r.target →
      0 < (t.zone z).ramp → r.RaiseTested (t.zone z).ramp u

/-! ## Fallback -/

/-- What the fallback of a sled of zone `z` has made of the sled's records in an event from `s` to `t` (R20, R126, R195):
each RETIRING one freed, each PARKED one kept, and each other at the smaller of its exposure and its fallback floor, in
PARKING where a park stood and FALLEN where none did; the zone requested where one was freed or fell; and the headroom
retry run where an exposure fell (R32). -/
def State.FellBack (s t : State) (d : SledNo) (z : ZoneNo) : Prop :=
  (∀ (h : Handle) (r : Allotment), s.allot h = some r → r.sled = d →
    (r.tag = .retiring → t.allot h = none ∧ s.RaisedNormal t z) ∧
      (r.tag = .live → r.grant = .parked → s.SameRecord t h) ∧
      (r.tag = .live → r.grant ≠ .parked →
        let m := min r.exposure r.fallbackFloor
        let parking := r.grant = .parking ∨ r.grant = .parkPending
        (¬parking → s.RaisedNormal t z) ∧
          ∃ u, t.allot h = some u ∧
            Allotment.SameButMark
              { r with
                acked := m, highest := m, sent := m, restatements := 0
                grant := if parking then .parking else .fallen } u)) ∧
    ((∃ (h : Handle) (r : Allotment), s.allot h = some r ∧ r.sled = d ∧
      (r.tag = .retiring ∧ 0 < r.exposure ∨
        r.tag = .live ∧ r.grant ≠ .parked ∧ r.fallbackFloor < r.exposure)) → s.Retried t z)

/-! ## Thermal changes -/

/-- The consequences of a change of one sled's effective state from `old` to what it is in `t`, in an event from `s`
(R100 to R102), with SENSOR raised where `fault` says so (R96): the cause of a rise, added to the item, and no other; the
hold timer started by a rise to WARM alone; the zone requested, urgently by a rise to HOT or CRITICAL; and by a rise to
CRITICAL the target of every living record set to idle, its decrease placed at once where one may be. -/
def State.ThermalConsequences (s t : State) (e : SledNo) (old : Thermal) (fault : Bool) : Prop :=
  let new := (t.sled e).eff
  let rose (x : Thermal) : Bool := new == x && decide (old.rank < new.rank)
  let item := s.attention.sleds[e]
  t.attention.sleds[e] =
      { item with
        warm := item.warm || rose .warm
        hot := item.hot || rose .hot
        critical := item.critical || rose .critical
        sensor := item.sensor || fault } ∧
    t.warmTimers[e] = (if rose .warm then .running else s.warmTimers[e]) ∧
    (∀ z : ZoneNo, t.zoneOfSled e = some z →
      (rose .hot || rose .critical → s.RaisedUrgent t z) ∧
        (new ≠ old → rose .hot = false → rose .critical = false → s.RaisedNormal t z) ∧
        (rose .critical → (∃ h r, s.allot h = some r ∧ r.sled = e) → s.RaisedNormal t z)) ∧
    (rose .critical → ∀ (h : Handle) (r : Allotment), s.allot h = some r → r.sled = e →
      ∃ u, t.allot h = some u ∧ u.target = r.idle ∧
        (r.tag = .live → s.mayPlace r = true → r.idle < r.sent →
          r.grant = .changing ∨ r.grant = .settled ∨ r.grant = .held ∨ r.grant = .parkPending →
          u.sent = r.idle ∧ u.sequence = r.sequence + 1 ∧ u.highest = r.highest ∧
            u.grant = if r.grant = .parkPending then .parkPending else .changing))

/-! ## Bytes -/

/-- The number in `n` bytes from an offset, the most significant byte first (chapter 11). -/
def numberAt (bytes : List Byte) (offset n : Nat) : Nat :=
  ((bytes.drop offset).take n).foldl (fun v b => 256 * v + b.toNat) 0

/-- The number of a byte of flags, the first in bit 0. -/
def flagsNumber (flags : List Bool) : Nat := flags.foldr (fun b n => 2 * n + b.toNat) 0

end Sys2Proof.Machine
end

