-- ==== Sys2Proof/WellFormed.lean ====
section
/-! DEFINITION. Which commands can come about: a REPORT of one to four triples, an ACK of one to four pairs (R131),
a REFUSED_FRAME whose frame fails the frame checks (R182), a DISCARDED_FRAME whose frame fails the uplink tests
(R132), a READ_TRANSACTION whose first byte is the READ code, and a WRITE_WHILE_BUSY and a WRITE_TRANSACTION_BEGIN whose
first byte is the WRITE code (R172). Every other command is well-formed with any operands: its parameter bytes are judged
by the machine. -/

namespace Sys2Proof

/-- The frame checks of R182 refuse the bytes. -/
def frameRefused (bytes : List Byte) : Bool :=
  match decodeFrame bytes with
  | .error _ => true
  | .ok _ => false

/-- The uplink tests of R132 discard the bytes. -/
def frameDiscarded (d : SledNo) (bytes : List Byte) : Bool :=
  match decodeUplink d bytes with
  | .error _ => true
  | .ok _ => false

/-- A command that can come about. -/
def Instr.wellFormed : Instr → Bool
  | .report _ ts => oneToFour ts
  | .ack _ ps => oneToFour ps
  | .refusedFrame bytes => frameRefused bytes
  | .discardedFrame d bytes => frameDiscarded d bytes
  | .readTransaction mdi => mdi.head? == some readCode
  | .writeWhileBusy mdi => mdi.head? == some writeCode
  | .writeTransactionBegin mdi => mdi.head? == some writeCode
  | .setZone .. | .setThermal .. | .setStation .. | .setService .. | .placeSled .. | .install .. | .amend ..
  | .amendTenant .. | .pair .. | .unpair .. | .park .. | .unpark .. | .retire .. | .lookup .. | .readSled ..
  | .readZone .. | .takeAttention | .setMasks .. | .readFaults .. | .restart | .responseReady
  | .powerOnReset | .resetEnd | .curtailEdge ..
  | .persistenceTimerExpiry .. | .recomputeCompletion | .refreshEvent .. | .goingSilent .. | .loss ..
  | .fallback .. | .transmissionStart .. | .transmissionCompletion .. | .join ..
  | .warmTimerExpiry .. => true

end Sys2Proof
end

