-- ==== Sys2Proof/Certificates/Slice0/Obligations.lean ====
section
/-! DEFINITION. The statements for the provers, each formalising rules of the manual: first the machine and the laws
every step keeps, then the frames, then the commands of the management port, the events of the link and of the timers,
and the arithmetic. -/

open Sys2Proof Sys2Proof.Machine

/-! ## The machine -/

/-- One step takes the command at the front of the queue and runs it on the machine with the queue's rest. The queue
is the model's own (logs 18 and 19). -/
def Obligations.StepRunsFrontCommand : Prop :=
  ∀ (c : Instr) (s : State), step { s with pending := c :: s.pending } = exec c s

/-! ## Laws every step keeps -/

/-- R165: ATTENTION is active exactly when an unmasked item is pending, after every step. -/
def Obligations.AttentionOutputFollowsItems : Prop :=
  ∀ s t : State, s.AttentionLaw → step s = .next t → t.AttentionLaw

/-- Section 10.1, R187: READY is inactive exactly while a response is in building (or RESET_N is low), and the port is
IDLE while RESET_N is low, after every step. How the response in building is kept is the model's reading (log 17). -/
def Obligations.ReadyOutputFollowsPort : Prop :=
  ∀ s t : State, s.ReadyLaw → s.BuildingLaw → s.HeldLaw → step s = .next t →
    t.ReadyLaw ∧ t.BuildingLaw ∧ t.HeldLaw

/-- R6, R110: the free handle stack holds exactly the FREE handles, none twice, and each sled's list exactly its
living records in ascending order, after every step. -/
def Obligations.HandleTableKept : Prop :=
  ∀ s t : State, s.TableLaw → step s = .next t → t.TableLaw

/-- R2, R7, R15: every contract stays in order, every pair mutual, LIVE, of one zone and of equal contracts, and the
masks of a sled disjoint, after every step. -/
def Obligations.ContractsPairsMasksKept : Prop :=
  ∀ s t : State, s.TableLaw → s.ContractLaw → s.PairLaw → s.MaskLaw → step s = .next t →
    t.ContractLaw ∧ t.PairLaw ∧ t.MaskLaw

/-- R25, R31, R34: X stays the sum of the exposures of a zone's living records, the floor sum the sum of their floors
and at most CB, and the count their number, after every step. -/
def Obligations.ZoneSumsKept : Prop :=
  ∀ s t : State, s.TableLaw → s.ContractLaw → s.PairLaw → s.SumLaw → step s = .next t → t.SumLaw

/-- R66, R70, R77, R126: no value in flight goes uncounted, at most 15 placements are unacknowledged, and UNLINKED,
FALLEN, SETTLED and HELD records stand at the values their states fix, after every step. -/
def Obligations.FlightValuesCounted : Prop :=
  ∀ s t : State, s.TableLaw → s.PairLaw → s.FlightLaw → s.StandingLaw → step s = .next t →
    t.FlightLaw ∧ t.StandingLaw

/-- R135, R143: each queue holds at most one waiting frame per sled, only for LINKED or SILENT sleds, its entries in
ascending handle order and each the latest entry of a living record of the sled, after every step. -/
def Obligations.DownlinkQueuesKept : Prop :=
  ∀ s t : State, s.TableLaw → s.LinkLaw → s.QueueLaw → step s = .next t → t.QueueLaw

/-- R45: while the apportioner is free no request waits, after every step. -/
def Obligations.FreeApportionerLeavesNoRequest : Prop :=
  ∀ s t : State, s.QuietLaw → step s = .next t → t.QuietLaw

/-- Section 1.3, R22, R49: every runtime field of a living record stays in its range, and the snapshot in service holds
lawful contracts in ascending handle order, pairs of one idle, derates of at most 100 and every marked record, after
every step. -/
def Obligations.RuntimeFieldsStayInRange : Prop :=
  ∀ s t : State, s.TableLaw → s.ContractLaw → s.PairLaw → s.SettingsLaw → s.StandingLaw → s.RangeLaw →
    s.SnapshotLaw → step s = .next t → t.RangeLaw ∧ t.SnapshotLaw

/-- R26: every zone's B is OB, or min(OB, KB) while its curtail line is taken as active, after every step; and every
setting stays within its range (section 2.1, R95, R105, R111, section 7.5). -/
def Obligations.BudgetsAndSettingsKept : Prop :=
  (∀ s t : State, s.BudgetLaw → step s = .next t → t.BudgetLaw) ∧
    ∀ s t : State, s.SettingsLaw → step s = .next t → t.SettingsLaw

/-- R121, R125, section 6.4: a LINKED sled has a silence count of at most 2, a SILENT one of 3 to 7, the fallback has
elapsed exactly at count 5, and only a LOST sled counts one, after every step. -/
def Obligations.LinkCountersKept : Prop :=
  ∀ s t : State, s.LinkLaw → step s = .next t → t.LinkLaw

/-- R112: an upstream stays a placed sled other than the sled itself, and no chain has more than 3 hops, after every
step. -/
def Obligations.UpstreamChainsKept : Prop :=
  ∀ s t : State, s.ChainLaw → step s = .next t → t.ChainLaw

/-- R98: every sled's effective thermal state stays the larger of its own state and one below its upstream's effective
state, after every step. -/
def Obligations.EffectiveStatesKept : Prop :=
  ∀ s t : State, s.ChainLaw → s.EffectiveLaw → step s = .next t → t.EffectiveLaw

/-- R32, R68, R72: whatever a command that can come about places, short of an INSTALL: where X of a zone or the exposure of
any record of it has risen, X is within the budget in effect, and a record whose sequence has moved to a GRANT carries a value from its idle to its
ceiling as they then stand. That an AMEND of a pair, for which R13 gives no order, lowers both targets before it invokes
for either is the model's (log 13). -/
def Obligations.RaisesStayWithinBudget : Prop :=
  ∀ (c : Instr) (s t : State), c.wellFormed = true → s.RecordLaws → s.RangeLaw → s.SettingsLaw → s.SnapshotLaw →
    (∀ a b m i p f k w x, c ≠ .install a b m i p f k w x) → exec c s = .next t →
    (∀ z : ZoneNo, (s.zone z).x < (t.zone z).x → (t.zone z).x ≤ (t.zone z).budget) ∧
      (∀ (h : Handle) (r u : Allotment) (z : ZoneNo), s.allot h = some r → t.allot h = some u →
        s.zoneOf r = some z → r.exposure < u.exposure → (t.zone z).x ≤ (t.zone z).budget) ∧
      ∀ (h : Handle) (r u : Allotment) (w wf f : Nat), s.allot h = some r → t.allot h = some u →
        u.sequence ≠ r.sequence → u.latest = .grant w wf f → u.idle ≤ u.sent ∧ u.sent ≤ u.ceiling

/-- Every law holds of the machine right after reset. The levels sampled on the curtail inputs are the model's choice
(log 2). -/
def Obligations.LawsHoldAtReset : Prop :=
  State.reset.AttentionLaw ∧ State.reset.ReadyLaw ∧ State.reset.BuildingLaw ∧ State.reset.HeldLaw ∧
    State.reset.RecordLaws ∧ State.reset.RangeLaw ∧ State.reset.SnapshotLaw ∧ State.reset.QueueLaw ∧
    State.reset.QuietLaw ∧ State.reset.BudgetLaw ∧ State.reset.SettingsLaw ∧ State.reset.LinkLaw ∧
    State.reset.ChainLaw ∧ State.reset.EffectiveLaw

/-! ## Frames -/

/-- R182, section 11.5: the frame of a management command decodes to it with every operand at every value, and no
other bytes do. -/
def Obligations.CommandFramesDecodeBack : Prop :=
  ∀ (c : Instr) (bytes : List Byte), decodeFrame bytes = .ok c ↔ encodeFrame c = some bytes

/-- Section 11.4: the uplink frame of a JOIN with any count, of a REPORT of 1 to 4 triples and of an ACK of 1 to 4
pairs passes every test of R132 on its sled's own pair and decodes to it, and every other pair discards it. -/
def Obligations.UplinkFramesDecodeBack : Prop :=
  ∀ (d e : SledNo) (c : Instr) (bytes : List Byte),
    ((∃ n, c = .join d n) ∨ (∃ ts, c = .report d ts ∧ 1 ≤ ts.length ∧ ts.length ≤ 4) ∨
      (∃ ps, c = .ack d ps ∧ 1 ≤ ps.length ∧ ps.length ≤ 4)) →
    encodeUplink c = some bytes →
      decodeUplink d bytes = .ok c ∧ (e ≠ d → decodeUplink e bytes = .error .sledNumber)

/-- R182: a frame corrupted in any one byte is refused as BAD_CHECK, never applied as another command. -/
def Obligations.CorruptedFrameIsBadCheck : Prop :=
  ∀ (c : Instr) (bytes : List Byte) (i : Nat) (b : Byte), encodeFrame c = some bytes → i < bytes.length →
    bytes[i]? ≠ some b → decodeFrame (bytes.set i b) = .error .badCheck

/-- R182, R181, R191: a frame that fails a frame check is answered with the FORMAT refusal of the first check that
fails, in their order: fewer than 2 bytes, the check byte, the code, the length. Its first byte is the command
answered, 0x00 for a frame of no bytes, and the byte after it, before the check byte, the first parameter. The first
parameter of so short a frame is the model's reading (log 21). -/
def Obligations.RefusedFramesAnsweredInOrder : Prop :=
  ∀ (s : State) (bytes : List Byte), s.Accepting →
    (bytes.length < 2 →
      Completes (.refusedFrame bytes) s fun t => s.Refused t (bytes.headD 0) none .badLength) ∧
    (2 ≤ bytes.length → bytes.getLast? ≠ some (crc8 bytes.dropLast) →
      Completes (.refusedFrame bytes) s fun t =>
        s.Refused t (bytes.headD 0) bytes.tail.dropLast.head? .badCheck) ∧
    (2 ≤ bytes.length → bytes.getLast? = some (crc8 bytes.dropLast) →
      ((bytes.headD 0).toNat = 0 ∨ 0x14 < (bytes.headD 0).toNat) →
      Completes (.refusedFrame bytes) s fun t =>
        s.Refused t (bytes.headD 0) bytes.tail.dropLast.head? .badCommand) ∧
    (2 ≤ bytes.length → bytes.getLast? = some (crc8 bytes.dropLast) →
      1 ≤ (bytes.headD 0).toNat → (bytes.headD 0).toNat ≤ 0x14 →
      [11, 10, 4, 18, 6, 15, 10, 5, 4, 3, 4, 4, 3, 3, 3, 3, 2, 6, 3, 2][(bytes.headD 0).toNat - 1]? ≠
        some bytes.length →
      Completes (.refusedFrame bytes) s fun t =>
        s.Refused t (bytes.headD 0) bytes.tail.dropLast.head? .badLength)

/-- R132, R190: an uplink frame that fails a test reaches no block and changes nothing: the ones of its address byte
even, a direction of 0, another sled's number, the last byte not the check byte of the others, or a frame malformed:
fewer than 3 bytes or more than 15, an unknown kind, a length that is not its kind's, or a sequence byte above 15 in an
ACK. A frame of which none of these holds is decoded. -/
def Obligations.DiscardedFrameChangesNothing : Prop :=
  ∀ (s : State) (d : SledNo) (bytes : List Byte),
    let address := bytes.headD 0
    let kind := numberAt bytes 1 1
    let n := bytes.length
    let fails := ((List.range 8).filter fun i => address.getLsbD i).length % 2 = 0 ∨ address.getLsbD 6 = false ∨
      address.toNat % 64 ≠ d.val ∨ bytes.getLast? ≠ some (crc8 bytes.dropLast) ∨ n < 3 ∨ 15 < n ∨
      kind = 0 ∨ 3 < kind ∨ (kind = 1 ∧ n ≠ 4) ∨ (kind = 2 ∧ n ∉ [6, 9, 12, 15]) ∨ (kind = 3 ∧ n ∉ [5, 7, 9, 11]) ∨
      (kind = 3 ∧ ∃ i < 4, 2 * i + 4 < n ∧ 15 < numberAt bytes (2 * i + 3) 1)
    (∀ why : Discard, decodeUplink d bytes = .error why → exec (.discardedFrame d bytes) s = .next s) ∧
      (fails → exec (.discardedFrame d bytes) s = .next s) ∧ (¬fails → ∃ c, decodeUplink d bytes = .ok c)

/-! ## The management port -/

/-- R172, R176, R191: a WRITE begun in IDLE makes the port TAKING, its buffer cleared and then holding the first 40 of the
bytes that have followed the code, with their number, the CRC-8 over all but the latest and the latest; while RESPONDING
nothing of it is stored. A transaction is judged by its first byte: with the WRITE code outside RESPONDING its bytes are
taken as a frame, and the port then holds the whole frame in the same way; with the READ code it is a READ; with any other
first byte, or none, it is ignored. A write while busy sets WRITE_WHILE_BUSY at its end, shifts filler and changes nothing
else, whatever command it carried. That a begin in TAKING changes nothing (log 3), that a command row in RESPONDING is such
a write and the row of a take spells its whole frame (log 4), that bytes decide what their row runs (log 5), and how MDO
is kept (log 8) is the model's. -/
def Obligations.WriteTransactionsByPortState : Prop :=
  (∀ (s : State) (bytes : List Byte), s.resetHeld = false →
    (s.port.state = .idle →
      exec (.writeTransactionBegin (0xA5#8 :: bytes)) s =
        .next { s with
          port := { s.port with
            state := .taking, command := bytes.take 40, received := bytes.length, crc := crc8 bytes.dropLast
            latest := bytes.getLast? }
          mdo := List.replicate bytes.length 0xFF#8 }) ∧
    (s.port.state = .taking → exec (.writeTransactionBegin (0xA5#8 :: bytes)) s = .next s) ∧
    (s.port.state = .responding →
      exec (.writeTransactionBegin (0xA5#8 :: bytes)) s =
        .next { s with mdo := List.replicate bytes.length 0xFF#8 }) ∧
    exec (.writeTransactionBegin (0x5A#8 :: bytes)) s = exec (.readTransaction (0x5A#8 :: bytes)) s) ∧
  (∀ (s : State) (bytes : List Byte), s.resetHeld = false →
    exec (.readTransaction (0xA5#8 :: bytes)) s = exec (.refusedFrame bytes) s ∧
    (s.Accepting →
      Completes (.refusedFrame bytes) s fun t =>
        t.port.state = .responding ∧ t.port.command = bytes.take 40 ∧ t.port.received = bytes.length ∧
          t.port.crc = crc8 bytes.dropLast ∧ t.port.latest = bytes.getLast? ∧
          t.mdo = List.replicate bytes.length 0xFF#8) ∧
    exec (.writeWhileBusy (0x5A#8 :: bytes)) s = exec (.readTransaction (0x5A#8 :: bytes)) s ∧
    (bytes.head? ≠ some 0xA5#8 → bytes.head? ≠ some 0x5A#8 →
      exec (.writeTransactionBegin bytes) s = .next s ∧ exec (.readTransaction bytes) s = .next s ∧
        exec (.writeWhileBusy bytes) s = .next s) ∧
    exec (.writeWhileBusy (0xA5#8 :: bytes)) s =
      .next { s with
        port := { s.port with flags := { s.port.flags with writeWhileBusy := true } }
        mdo := List.replicate bytes.length 0xFF#8 }) ∧
  ∀ (c : Instr) (s : State) (frame : List Byte), encodeFrame c = some frame → s.resetHeld = false →
    s.port.state = .responding →
    exec c s =
      .next { s with
        port := { s.port with flags := { s.port.flags with writeWhileBusy := true } }
        mdo := List.replicate frame.length 0xFF#8 }

/-- R174: at the second event the response is written into the response buffer, response read becomes no, the port
IDLE and READY active, and its last byte is the check byte of the others. -/
def Obligations.ResponseReadyDelivers : Prop :=
  ∀ (s : State) (r : Response), s.resetHeld = false → s.port.state = .responding → s.port.building = some r →
    r.bytes.getLast? = some (crc8 r.bytes.dropLast) ∧
      exec .responseReady s =
        .next { s with
          port := { s.port with state := .idle, response := some r, building := none, responseRead := false }
          readyPin := true }

/-- R175: outside RESPONDING a READ shifts out the response from its first byte and then filler, one byte per byte
clocked after its code, whatever they are, and response read becomes yes once its last byte has been shifted out; while
RESPONDING it shifts out NOT_READY and then filler and changes no state. -/
def Obligations.ReadTransactionShiftsResponse : Prop :=
  ∀ (s : State) (bytes : List Byte), s.resetHeld = false →
    let n := bytes.length
    (∀ r, s.port.state ≠ .responding → s.port.response = some r →
      exec (.readTransaction (0x5A#8 :: bytes)) s =
        .next { s with
          port := { s.port with responseRead := s.port.responseRead || decide (r.bytes.length ≤ n) }
          mdo := r.bytes.take n ++ List.replicate (n - r.bytes.length) 0xFF#8 }) ∧
    (s.port.state = .responding →
      exec (.readTransaction (0x5A#8 :: bytes)) s =
        .next { s with mdo := if n = 0 then [] else 0xEE#8 :: List.replicate (n - 1) 0xFF#8 })

/-- R173: the take of a command discards an unread response with RESPONSE_LOST, makes the port RESPONDING and READY
inactive, and fixes a response that carries the command's code; the port then holds the whole frame, its length, its
CRC-8 and its last byte (R172, R191); the commands that clear the flags aside, RESPONSE_LOST stands. What a row stands
for, and how MDO and the discarded response are kept, is the model's (logs 4, 8 and 17). -/
def Obligations.TakeFixesResponse : Prop :=
  ∀ (c : Instr) (s : State) (code : Byte) (frame : List Byte), commandCode c = some code →
    encodeFrame c = some frame → s.Accepting →
    Completes c s fun t =>
      t.port.state = .responding ∧ t.readyPin = false ∧ (∃ r, t.port.building = some r ∧ r.code = code) ∧
        t.port.command = frame ∧ t.port.received = frame.length ∧ t.port.crc = crc8 frame.dropLast ∧
        t.port.latest = frame.getLast? ∧ t.mdo = List.replicate frame.length 0xFF#8 ∧
        t.port.response = (if s.losesResponse then none else s.port.response) ∧
        t.port.responseRead = s.port.responseRead ∧ t.pending = s.pending ∧
        (c ≠ .restart → (∀ b, c ≠ .readFaults b) → s.losesResponse = true → t.port.flags.responseLost = true)

/-- R178, R180, R181: a refusal leaves every state of the part as it was but the port, sets the flag of its class, and
writes the last refused record. -/
def Obligations.RefusalLeavesEverythingElse : Prop :=
  ∀ (c : Instr) (s t : State) (code : Byte) (r : Response) (d : Detail), commandCode c = some code →
    s.Accepting → exec c s = .next t → t.port.building = some r → r.result = .refused d →
    s.Refused t code (parameters c).head? d

/-- R183, R191, R1, R12, R15, R149: a handle above 159, a sled above 47, a zone above 7 or a station above 5 in the
first parameter that is a number, a channel mask or wake code of INSTALL outside its field, and a selection of AMEND or
a wake code it selects outside theirs, are refused with BAD_NUMBER, whatever the state; a handle that is FREE with
HANDLE_FREE; and AMEND, PAIR and PARK of a RETIRING record with RETIRING. -/
def Obligations.NumbersAndHandlesJudgedFirst : Prop :=
  ∀ s : State, s.Accepting →
    let refused (c : Instr) (x : Detail) : Prop :=
      Completes c s fun t => s.Refused t ((commandCode c).getD 0) (parameters c).head? x
    (∀ b : Byte, 160 ≤ b.toNat →
      (∀ c ∈ [Instr.unpair b, .retire b, .lookup b, .park 0 b, .unpark 0 b], refused c .badNumber) ∧
        (∀ a : Byte, refused (.pair a b) .badNumber ∧ refused (.pair b a) .badNumber) ∧
        ∀ (n w k : Byte) (f c : Half), refused (.amend b n f c w k) .badNumber) ∧
    (∀ b : Byte, 48 ≤ b.toNat →
      (∀ c ∈ [Instr.readSled b, .park 1 b, .unpark 1 b], refused c .badNumber) ∧
        (∀ z n u : Byte, refused (.placeSled b z n u) .badNumber) ∧
        ∀ (n m w k : Byte) (i p f c : Half), refused (.install n b m i p f c w k) .badNumber) ∧
    (∀ b : Byte, 8 ≤ b.toNat → refused (.readZone b) .badNumber ∧
      (∀ (cb ob kb : Half) (r d : Byte), refused (.setZone b cb ob kb r d) .badNumber)) ∧
    (∀ b i : Byte, 6 ≤ b.toNat → refused (.setStation b i) .badNumber) ∧
    (∀ b n : Byte, 2 ≤ b.toNat → refused (.park b n) .badNumber ∧ refused (.unpark b n) .badNumber) ∧
    (∀ (n b m w k : Byte) (i p f c : Half), 16 ≤ m.toNat ∨ 2 ≤ k.toNat →
      refused (.install n b m i p f c w k) .badNumber) ∧
    (∀ (b n w k : Byte) (f c : Half), 16 ≤ n.toNat ∨ (n.getLsbD 3 = true ∧ 2 ≤ k.toNat) →
      refused (.amend b n f c w k) .badNumber) ∧
    (∀ h : Handle, s.allot h = none →
      let b := byteOf h.val
      (∀ c ∈ [Instr.unpair b, .retire b, .lookup b, .park 0 b, .unpark 0 b], refused c .handleFree) ∧
        (∀ k : Handle, refused (.pair b (byteOf k.val)) .handleFree ∧ refused (.pair (byteOf k.val) b) .handleFree) ∧
        ∀ (n w : Byte) (f c : Half), n.toNat < 16 → refused (.amend b n f c w 0) .handleFree) ∧
    (∀ (h : Handle) (r : Allotment), s.allot h = some r → r.tag = .retiring →
      let b := byteOf h.val
      refused (.park 0 b) .retiring ∧
        (∀ k : Handle, (s.allot k).isSome →
          refused (.pair b (byteOf k.val)) .retiring ∧ refused (.pair (byteOf k.val) b) .retiring) ∧
        ∀ (n w : Byte) (f c : Half), n.toNat < 16 → refused (.amend b n f c w 0) .retiring)

/-- R21, R41, R127, R192, R193: LOOKUP of a living record, READ_SLED and READ_ZONE return the image of the record as
it stands, of 32, 27 and 20 bytes, every field at its offset (section 11.7), and change no state: the exposure by R5, the
relation class by R21, the codes of the states in their order, and an absent field 0, or 0xFF in a placement and in an
empty place of the handle list. That bits the images do
not name are 0 is the model's choice (log 25); bits 7 to 1 of the flags bytes of the last report are left open here. -/
def Obligations.ReadCommandsReturnImages : Prop :=
  ∀ s : State, s.Accepting →
    (∀ (h : Handle) (r : Allotment), s.allot h = some r →
      let link := (s.sled r.sled).link
      let b := recordImage h link r
      let at2 (offset v : Nat) : Prop := numberAt b offset 2 = v % 65536
      let exposure :=
        if r.grant = .unlinked ∨ r.grant = .parked then r.idle
        else if r.grant = .fallen then r.acked else max r.acked r.highest
      let relation : Nat :=
        match r.demand with
        | none => 0
        | some demand =>
          if link = .linked ∧ (r.grant = .changing ∨ r.grant = .settled ∨ r.grant = .held ∨ r.grant = .parkPending) then
            if r.sent < demand then 1 else if demand < r.sent then 2 else 3
          else 0
      let kind : Nat := match r.latest with | .none => 0 | .grant .. => 1 | .park => 2 | .release => 3
      let grants : List GrantState :=
        [.unlinked, .changing, .settled, .held, .parkPending, .parking, .parked, .fallen]
      Completes (.lookup (byteOf h.val)) s fun t =>
        s.SameButPort t ∧ s.AnswersDone t 0x0E false b ∧ b.length = 32 ∧
          numberAt b 0 1 = h.val ∧ numberAt b 1 1 = (if r.tag = .live then 1 else 2) ∧
          numberAt b 2 1 = r.tenant.toNat ∧ numberAt b 3 1 = r.sled.val ∧ numberAt b 4 1 = r.mask.toNat ∧
          numberAt b 5 1 =
            flagsNumber [r.wake, r.partner.isSome, r.demand.isSome, r.demandUsed.isSome, r.wakeAfter] ∧
          numberAt b 6 1 = r.partner.elim 0 (·.val) ∧
          (at2 7 r.idle ∧ at2 9 r.peak ∧ at2 11 r.floor ∧ at2 13 r.ceiling) ∧ numberAt b 15 1 = r.weight % 256 ∧
          (at2 16 (r.demand.getD 0) ∧ at2 18 (r.demandUsed.getD 0)) ∧
          (at2 20 r.target ∧ at2 22 r.sent ∧ at2 24 r.acked ∧ at2 26 r.highest ∧ at2 28 exposure) ∧
          numberAt b 30 1 = r.sequence.toNat + 16 * kind ∧
          numberAt b 31 1 = (grants.idxOf r.grant + 8 * r.restatements + 64 * relation) % 256) ∧
    (∀ d : SledNo,
      let r := s.sled d
      let b := sledImage d r
      let upstream := r.placement.bind (·.upstream)
      let links : List Link := [.unplaced, .idle, .linked, .silent, .lost]
      let states : List Thermal := [.normal, .warm, .hot, .critical]
      Completes (.readSled (byteOf d.val)) s fun t =>
        s.SameButPort t ∧ s.AnswersDone t 0x0F false b ∧ b.length = 27 ∧ numberAt b 0 1 = d.val ∧
          numberAt b 1 1 =
            flagsNumber [r.placement.isSome, upstream.isSome, r.report.isSome, r.elapsed, r.answered] ∧
          (numberAt b 2 1 = r.placement.elim 255 (·.zone.val) ∧
            numberAt b 3 1 = r.placement.elim 255 (fun p => p.channels % 256) ∧
            numberAt b 4 1 = upstream.elim 255 (·.val)) ∧
          (numberAt b 5 1 = links.idxOf r.link ∧ numberAt b 6 1 = r.silence % 256 ∧
            numberAt b 7 1 = r.fallbacks % 256) ∧
          (numberAt b 8 1 = states.idxOf r.own ∧ numberAt b 9 1 = states.idxOf r.eff) ∧
          numberAt b 10 1 = r.handles.length % 256 ∧
          ∀ i < 4,
            let x : Triple := ((r.report.getD [])[i]?).getD ⟨0, false, 0⟩
            numberAt b (11 + i) 1 = (r.handles[i]?).elim 255 (·.val) ∧
              numberAt b (15 + 3 * i) 1 = x.activity.toNat ∧ numberAt b (16 + 3 * i) 1 % 2 = x.deferred.toNat ∧
              numberAt b (17 + 3 * i) 1 = x.temperature.toNat) ∧
    ∀ z : ZoneNo,
      let v := s.zone z
      let inService := s.service.any fun w => w.zone == z
      let b := zoneImage z (s.inService z) v
      let at2 (offset n : Nat) : Prop := numberAt b offset 2 = n % 65536
      Completes (.readZone (byteOf z.val)) s fun t =>
        s.SameButPort t ∧ s.AnswersDone t 0x10 false b ∧ b.length = 20 ∧ numberAt b 0 1 = z.val ∧
          (at2 1 v.cb ∧ at2 3 v.ob ∧ at2 5 v.kb) ∧ numberAt b 7 1 = v.ramp % 256 ∧
          numberAt b 8 1 = v.deadband % 256 ∧
          numberAt b 9 1 = flagsNumber [v.taken, v.short, v.normalReq, v.urgentReq, inService] ∧
          (at2 10 v.budget ∧ at2 12 v.floorSum) ∧ numberAt b 14 3 = v.x % 16777216 ∧ at2 17 v.spare ∧
          numberAt b 19 1 = v.count % 256

/-- R166, section 11.7: TAKE_ATTENTION returns the device item, else the pending item of the lowest zone, else that of the
lowest sled that is unmasked, whole, with its kind, its number and each of its causes in its bit, and removes its causes;
with none pending and unmasked it returns NONE and removes nothing. It tells whether another unmasked item and whether a
masked item is pending, and ATTENTION follows. That the bits the image does not name are 0 is the model's choice (log
25). -/
def Obligations.TakeAttentionReturnsFirstItem : Prop :=
  ∀ s : State, s.Accepting →
    let a := s.attention
    let unmasked (u : AttentionUnit) : Prop := u.device = true ∨ (∃ z : ZoneNo, u.zones[z].isPending = true) ∨
      ∃ d : SledNo, u.sleds[d].isPending = true ∧ u.masks[stationOf d] = false
    let masked (u : AttentionUnit) : Prop := ∃ d : SledNo, u.sleds[d].isPending = true ∧ u.masks[stationOf d] = true
    let took (kind number : Nat) (causes : List Bool) (u : AttentionUnit) (t : State) : Prop :=
      (∃ b : List Byte, s.AnswersDone t 0x11 false b ∧ b.length = 4 ∧ numberAt b 0 1 = kind ∧ numberAt b 1 1 = number ∧
        numberAt b 2 1 = flagsNumber causes ∧ ∃ x y : Bool, (x = true ↔ unmasked u) ∧ (y = true ↔ masked u) ∧
          numberAt b 3 1 = flagsNumber [x, y]) ∧
        t = { s with
          attention := u, attentionPin := t.attentionPin, port := t.port, readyPin := t.readyPin, mdo := t.mdo } ∧
        (s.AttentionLaw → t.attentionPin = u.anyUnmasked)
    (a.device = true →
      Completes .takeAttention s (took 1 0 [true] { a with device := false })) ∧
    (∀ z : ZoneNo, a.device = false → a.zones[z].isPending = true → (∀ y < z, a.zones[y].isPending = false) →
      Completes .takeAttention s
        (took 2 z.val [a.zones[z].short, a.zones[z].curtail] { a with zones := a.zones.set z ⟨false, false⟩ })) ∧
    (∀ d : SledNo, a.device = false → (∀ z : ZoneNo, a.zones[z].isPending = false) →
      a.sleds[d].isPending = true → a.masked d = false →
      (∀ e < d, a.sleds[e].isPending = false ∨ a.masked e = true) →
      Completes .takeAttention s
        (took 3 d.val
          [a.sleds[d].warm, a.sleds[d].hot, a.sleds[d].critical, a.sleds[d].lost, a.sleds[d].refused, a.sleds[d].sensor]
          { a with sleds := a.sleds.set d ⟨false, false, false, false, false, false⟩ })) ∧
    (a.device = false → (∀ z : ZoneNo, a.zones[z].isPending = false) →
      (∀ d : SledNo, a.sleds[d].isPending = false ∨ a.masked d = true) →
      Completes .takeAttention s (took 0 0 [] a))

/-- R184: SET_MASKS with settings of 0x00 or 0x01 and a station mask set below 64 replaces all nine values and
ATTENTION follows at once; any other is refused with BAD_NUMBER. -/
def Obligations.SetMasksReplacesNineValues : Prop :=
  ∀ (s : State) (r o c m : Byte), s.Accepting →
    if r.toNat ≤ 1 ∧ o.toNat ≤ 1 ∧ c.toNat ≤ 1 ∧ m.toNat < 64 then
      Completes (.setMasks r o c m) s fun t =>
        (∃ b, t.port.building = some b ∧ b = ⟨0x12, .done false, []⟩) ∧
          t.port.masks = ⟨r == 1, o == 1, c == 1⟩ ∧ t.port.flags = s.takenFlags ∧
          t.port.lastRefused = s.port.lastRefused ∧
          (∀ st : StationNo, t.attention.masks[st] = m.getLsbD st.val) ∧
          t.attentionPin = t.attention.anyUnmasked ∧
          t = { s with
            attention := { s.attention with masks := t.attention.masks }
            attentionPin := t.attentionPin, port := t.port, readyPin := t.readyPin, mdo := t.mdo }
    else Completes (.setMasks r o c m) s fun t => s.Refused t 0x12 (some r) .badNumber

/-- R185, R192: READ_FAULTS returns the fault image as it stands after step 1 of the take: the class flags, the port's
flags, and the last refused record with the codes of its class and of its detail, numbered within the class from its
first code (section 11.6), or zeros where there is none; with clear every flag is then cleared and the last refused
record absent; any other code for clear is refused. That the bits the image does not name are 0 is the model's choice (log
25). -/
def Obligations.ReadFaultsReturnsAndClears : Prop :=
  ∀ s : State, s.Accepting →
    (let f := s.takenFlags
      let last := s.port.lastRefused
      let b := faultImage f last
      let classes : List (Nat × List Detail) :=
        [(0x01, [.badLength, .badCheck, .badCommand, .badNumber]),
          (0x10, [.handleFree, .retiring, .sledUnplaced, .hasAllotments]), (0x20, [.tableFull]),
          (0x30, [.maskEmpty, .maskOutside, .maskOverlap, .sameHandle, .paired, .sameSled, .zoneDiffers,
            .contractDiffers, .parkDiffers, .selfUpstream, .upstreamUnplaced, .cycle, .tooDeep, .isUpstream]),
          (0x50, [.idle, .peak, .floor, .ceiling, .weight, .percent, .cb, .ob, .kb, .ramp, .threshold, .derate,
            .channels, .interval]),
          (0x60, [.peakNotAboveIdle, .floorBelowIdle, .floorAbovePeak, .ceilingBelowFloor, .ceilingAbovePeak,
            .thresholdOrder]),
          (0x70, [.noRoom, .belowFloors])]
      b.length = 6 ∧
        numberAt b 0 1 = flagsNumber [f.format, f.state, f.capacity, f.conflict, f.range, f.order, f.contract] ∧
        numberAt b 1 1 =
          flagsNumber [f.responseLost, f.writeWhileBusy, last.isSome, (last.bind (·.parameter)).isSome] ∧
        (last = none → numberAt b 2 4 = 0) ∧
        ∀ r : RefusedRecord, last = some r →
          numberAt b 2 1 = r.command.toNat ∧ numberAt b 3 1 = r.parameter.elim 0 (·.toNat) ∧
            ∀ (k i first : Nat) (details : List Detail), classes[k]? = some (first, details) →
              details[i]? = some r.detail → numberAt b 4 1 = k + 1 ∧ numberAt b 5 1 = first + i) ∧
    (Completes (.readFaults 0) s fun t =>
      s.SameButPort t ∧ s.AnswersDone t 0x13 false (faultImage s.takenFlags s.port.lastRefused)) ∧
    (Completes (.readFaults 1) s fun t =>
      s.SameButPort t ∧
        t.port.building = some ⟨0x13, .done false, faultImage s.takenFlags s.port.lastRefused⟩ ∧
        t.port.flags = StickyFlags.clear ∧ t.port.lastRefused = none ∧ t.port.masks = s.port.masks) ∧
    ∀ b : Byte, 2 ≤ b.toNat → Completes (.readFaults b) s fun t => s.Refused t 0x13 (some b) .badNumber

/-! ## Settings -/

/-- R35, R39, R40, R26: a SET_ZONE in range, or with its RANGE faults adjusted, writes the five settings and B,
raises the normal request, and keeps the floor sum, the short flag, the spare, the count, the filter and every contract;
where B does not rise it keeps every record and every X, and where B rises the headroom retry raises the HELD records that
pass (R27, R74), with their partners, and no other record nor X of another zone moves; a CB below the floor sum is raised
to it under CONTRACT adjust, and refused with BELOW_FLOORS under refuse. Under RANGE refuse the first field out of range,
in the order CB, OB, KB, R, refuses it. -/
def Obligations.SetZoneWritesSettings : Prop :=
  ∀ (s : State) (z : ZoneNo) (cb ob kb : Half) (ramp deadband : Byte), s.Accepting →
    let outside := 16383 < cb.toNat ∨ 16383 < ob.toNat ∨ 16383 < kb.toNat ∨ ramp.toNat = 0
    let v := s.zone z
    let c := Instr.setZone (byteOf z.val) cb ob kb ramp deadband
    let refused (x : Detail) : Prop := Completes c s fun t => s.Refused t 0x01 (some (byteOf z.val)) x
    (s.port.masks.range = true ∨ ¬outside →
      if v.floorSum ≤ min cb.toNat 16383 ∨ s.port.masks.contract = true then
        Completes c s fun t =>
          s.AnswersApplied t 0x01 ⟨decide outside, false, decide (min cb.toNat 16383 < v.floorSum)⟩ [] ∧
            Zone.SameButSums
              { v with
                cb := max (min cb.toNat 16383) v.floorSum
                ob := min ob.toNat 16383
                kb := min kb.toNat 16383
                ramp := max 1 ramp.toNat
                deadband := deadband.toNat
                budget :=
                  if v.taken then min (min ob.toNat 16383) (min kb.toNat 16383) else min ob.toNat 16383 }
              (t.zone z) ∧
            s.RaisedNormal t z ∧
            ((t.zone z).budget ≤ v.budget →
              (∀ y : ZoneNo, (t.zone y).x = (s.zone y).x) ∧ t.stations = s.stations ∧ ∀ h : Handle, s.SameRecord t h) ∧
            (s.PairLaw → v.budget < (t.zone z).budget →
              s.Retried t z ∧
                ∀ (h : Handle) (r : Allotment), s.allot h = some r →
                  s.zoneOf r ≠ some z ∨ r.grant ≠ .held ∧ (r.partner = none ∨ r.grant ≠ .settled) →
                  s.SameRecord t h) ∧
            (∀ y : ZoneNo, y ≠ z → (s.zone y).SameButSums (t.zone y) ∧ (s.PairLaw → (t.zone y).x = (s.zone y).x)) ∧
            (∀ h : Handle, s.SameContract t h) ∧
            (∀ st : StationNo, (s.station st).SameButQueue (t.station st)) ∧
            t = { s with
              allotments := t.allotments, zones := t.zones, stations := t.stations, service := t.service
              pointer := t.pointer, port := t.port, readyPin := t.readyPin, mdo := t.mdo }
      else refused .belowFloors) ∧
    (s.port.masks.range = false →
      (16383 < cb.toNat → refused .cb) ∧
        (cb.toNat ≤ 16383 → 16383 < ob.toNat → refused .ob) ∧
        (cb.toNat ≤ 16383 → ob.toNat ≤ 16383 → 16383 < kb.toNat → refused .kb) ∧
        (cb.toNat ≤ 16383 → ob.toNat ≤ 16383 → kb.toNat ≤ 16383 → ramp.toNat = 0 → refused .ramp))

/-- R106, R107: SET_THERMAL is refused under RANGE refuse with THRESHOLD or DERATE, by the first value out of range; its
RANGE faults adjusted or none, with THRESHOLD_ORDER where the thresholds left break the order of R95, whatever the ORDER
setting; otherwise it writes all eight, evaluates no sled, and raises every zone's normal request exactly where a derate
changed. -/
def Obligations.SetThermalReplacesThresholds : Prop :=
  ∀ (s : State) (w1 w0 h1 h0 c1 c0 dw dh : Byte), s.Accepting →
    let outside := w1.toNat = 255 ∨ w0.toNat = 255 ∨ h1.toNat = 255 ∨ h0.toNat = 255 ∨ c1.toNat = 255 ∨
      c0.toNat = 255 ∨ dw.toNat = 0 ∨ 100 < dw.toNat ∨ dh.toNat = 0 ∨ 100 < dh.toNat
    let a : Assessor :=
      { warmOn := min w1.toNat 254, warmOff := min w0.toNat 254, hotOn := min h1.toNat 254
        hotOff := min h0.toNat 254, criticalOn := min c1.toNat 254, criticalOff := min c0.toNat 254
        warmDerate := max 1 (min dw.toNat 100), hotDerate := max 1 (min dh.toNat 100) }
    let threshold := w1.toNat = 255 ∨ w0.toNat = 255 ∨ h1.toNat = 255 ∨ h0.toNat = 255 ∨ c1.toNat = 255 ∨
      c0.toNat = 255
    let refused (x : Detail) : Prop :=
      Completes (.setThermal w1 w0 h1 h0 c1 c0 dw dh) s fun t => s.Refused t 0x02 (some w1) x
    (s.port.masks.range = false → (threshold → refused .threshold) ∧ (¬threshold → outside → refused .derate)) ∧
    (s.port.masks.range = true ∨ ¬outside → ¬a.Legal → refused .thresholdOrder) ∧
    (s.port.masks.range = true ∨ ¬outside → a.Legal →
      Completes (.setThermal w1 w0 h1 h0 c1 c0 dw dh) s fun t =>
        s.AnswersApplied t 0x02 ⟨decide outside, false, false⟩ [] ∧ t.assessor = a ∧
          (if a.warmDerate = s.assessor.warmDerate ∧ a.hotDerate = s.assessor.hotDerate then
            t = { s with assessor := a, port := t.port, readyPin := t.readyPin, mdo := t.mdo }
          else
            (∀ z : ZoneNo, s.RaisedNormal t z) ∧ (∀ h : Handle, s.SameRecord t h) ∧
              (∀ z : ZoneNo, (s.zone z).SameButSums (t.zone z) ∧ (t.zone z).x = (s.zone z).x) ∧
              t = { s with
                assessor := a, allotments := t.allotments, zones := t.zones, service := t.service
                pointer := t.pointer, port := t.port, readyPin := t.readyPin, mdo := t.mdo }))

/-- R144: SET_STATION names a station up to 5; an interval of 0 or 1 becomes 2 under RANGE adjust and is refused with
INTERVAL under refuse; the interval in effect clears a pending one, any other becomes the pending interval, and nothing
else of any station moves. -/
def Obligations.SetStationSetsPendingInterval : Prop :=
  ∀ (s : State) (b i : Byte), s.Accepting →
    (6 ≤ b.toNat → Completes (.setStation b i) s fun t => s.Refused t 0x03 (some b) .badNumber) ∧
    ∀ st : StationNo, b = byteOf st.val →
      if i.toNat < 2 ∧ s.port.masks.range = false then
        Completes (.setStation b i) s fun t => s.Refused t 0x03 (some b) .interval
      else
        Completes (.setStation b i) s fun t =>
          s.AnswersApplied t 0x03 ⟨decide (i.toNat < 2), false, false⟩ [] ∧
            t = { s with
              stations := s.stations.set st
                { s.station st with
                  pendingInterval :=
                    if max 2 i.toNat = (s.station st).interval then none else some (max 2 i.toNat) }
              port := t.port, readyPin := t.readyPin, mdo := t.mdo }

/-- R48: SET_SERVICE with 16 zone numbers replaces the table and nothing else; with a number above 7 in any position
it is refused with BAD_NUMBER and the table left. -/
def Obligations.SetServiceReplacesTable : Prop :=
  ∀ (s : State) (zs : Vector Byte 16), s.Accepting →
    ((∀ p : Fin 16, zs[p].toNat < 8) →
      Completes (.setService zs) s fun t =>
        s.AnswersDone t 0x04 false [] ∧ (∀ p : Fin 16, (t.table[p]).val = zs[p].toNat) ∧
          t = { s with table := t.table, port := t.port, readyPin := t.readyPin, mdo := t.mdo }) ∧
    ((∃ p : Fin 16, 8 ≤ zs[p].toNat) →
      Completes (.setService zs) s fun t => s.Refused t 0x04 (some zs[(0 : Fin 16)]) .badNumber)

/-! ## Placement -/

/-- R111, R113, R114, R103: a PLACE_SLED that passes its checks, its count in range or adjusted, places an UNPLACED
sled IDLE with no report, its own state NORMAL and its effective state by its upstream; changes the placement of a
placed one, its link state, counters and own state kept and a report of another count cleared; a change of an effective
state has its consequences for that sled and no other item or timer moves (R99 to R102); and with a zone of none
unplaces it, clearing placement, link, counters, report, thermal states, timer and waiting frames and keeping its
attention item, or changes nothing of a sled already UNPLACED. That an unplacing checks no upstream is the model's
reading (log 14). -/
def Obligations.PlaceSledPlacesMovesUnplaces : Prop :=
  ∀ (s : State) (d : SledNo), s.Accepting → s.ChainLaw → s.QuietLaw →
    (∀ (z : ZoneNo) (count : Byte) (up : Option SledNo),
      let n := max 1 (min count.toNat 4)
      let outside := count.toNat = 0 ∨ 4 < count.toNat
      let c := Instr.placeSled (byteOf d.val) (byteOf z.val) count (up.elim 0xFF fun u => byteOf u.val)
      let answered (t : State) : Prop := s.AnswersApplied t 0x05 ⟨decide outside, false, false⟩ []
      (s.port.masks.range = true ∨ ¬outside) →
      (∀ u, up = some u → u ≠ d ∧ (s.sled u).placement.isSome ∧ d ∉ s.upstreams 48 u) →
      (up.elim 0 fun u => s.hopsUp u + 1) + s.hopsDown d ≤ 3 →
      ((s.sled d).placement = none →
        Completes c s fun t =>
          answered t ∧
            t.sled d =
              { placement := some ⟨z, n, up⟩, link := .idle, silence := 0, fallbacks := 0, elapsed := false
                answered := false, report := none, own := .normal
                eff := up.elim .normal fun u => (s.sled u).eff.below, handles := (s.sled d).handles } ∧
            (∀ e : SledNo, e ≠ d → t.sled e = s.sled e) ∧ (∀ h : Handle, s.SameRecord t h) ∧
            (∀ y : ZoneNo, (s.zone y).SameButSums (t.zone y) ∧ (t.zone y).x = (s.zone y).x) ∧
            s.ThermalConsequences t d .normal false ∧
            (∀ e : SledNo, e ≠ d →
              t.attention.sleds[e] = s.attention.sleds[e] ∧ t.warmTimers[e] = s.warmTimers[e]) ∧
            t.attention = { s.attention with sleds := t.attention.sleds } ∧
            t = { s with
              sleds := t.sleds, allotments := t.allotments, zones := t.zones, service := t.service
              pointer := t.pointer, warmTimers := t.warmTimers, attention := t.attention
              attentionPin := t.attentionPin, port := t.port, readyPin := t.readyPin, mdo := t.mdo }) ∧
      (∀ old : Placement, (s.sled d).placement = some old →
        (s.sled d).handles = [] ∨ (old.zone = z ∧ old.channels = n) →
        Completes c s fun t =>
          let moved : Sled :=
            { s.sled d with
              placement := some ⟨z, n, up⟩
              report := if n = old.channels then (s.sled d).report else none }
          answered t ∧ t.sled d = { moved with eff := (t.sled d).eff } ∧
            (∀ e : SledNo, e ≠ d → t.sled e = { s.sled e with eff := (t.sled e).eff }) ∧
            (∀ h : Handle, s.SameContract t h) ∧ (∀ y : ZoneNo, (s.zone y).SameButSums (t.zone y)) ∧
            (∀ st : StationNo, (s.station st).SameButQueue (t.station st)) ∧
            (s.EffectiveLaw → ∀ e : SledNo, s.ThermalConsequences t e (s.sled e).eff false) ∧
            t.attention = { s.attention with sleds := t.attention.sleds } ∧
            (up = old.upstream →
              t = { s with
                sleds := s.sleds.set d moved, port := t.port, readyPin := t.readyPin, mdo := t.mdo }) ∧
            t = { s with
              sleds := t.sleds, allotments := t.allotments, zones := t.zones, stations := t.stations
              service := t.service, pointer := t.pointer, warmTimers := t.warmTimers, attention := t.attention
              attentionPin := t.attentionPin, port := t.port, readyPin := t.readyPin, mdo := t.mdo })) ∧
    ∀ (count up : Byte), (∀ e : SledNo, s.upstreamOf e ≠ some d) →
      ((s.sled d).placement = none →
        Completes (.placeSled (byteOf d.val) 0xFF count up) s fun t =>
          s.AnswersDone t 0x05 false [] ∧ s.SameButPort t) ∧
      ((s.sled d).placement.isSome → (s.sled d).handles = [] →
        Completes (.placeSled (byteOf d.val) 0xFF count up) s fun t =>
          s.AnswersDone t 0x05 false [] ∧
            t = { s with
              sleds := s.sleds.set d
                { placement := none, link := .unplaced, silence := 0, fallbacks := 0, elapsed := false
                  answered := false, report := none, own := .normal, eff := .normal, handles := [] }
              warmTimers := s.warmTimers.set d .stopped
              stations := s.stations.set (stationOf d)
                { s.station (stationOf d) with
                  queue := (s.station (stationOf d)).queue.filter fun f => f.sled != d }
              port := t.port, readyPin := t.readyPin, mdo := t.mdo })

/-- R111, R112: the refusals of PLACE_SLED in their order: a zone or an upstream that is no number, a count out of range
under RANGE refuse, and then the STATE and CONFLICT faults. That an unplacing judges no count and no upstream byte is
the model's reading (log 14). -/
def Obligations.PlaceSledRefusalsInOrder : Prop :=
  ∀ (s : State) (d u : SledNo) (z : ZoneNo) (count : Byte), s.Accepting →
    let refused (zone up : Byte) (x : Detail) : Prop :=
      Completes (.placeSled (byteOf d.val) zone count up) s fun t =>
        s.Refused t 0x05 (some (byteOf d.val)) x
    let n := max 1 (min count.toNat 4)
    let ranged := s.port.masks.range = true ∨ 1 ≤ count.toNat ∧ count.toNat ≤ 4
    let moves : Prop := ∃ p, (s.sled d).placement = some p ∧ (s.sled d).handles ≠ [] ∧
      (p.zone ≠ z ∨ p.channels ≠ n)
    (∀ zone up : Byte, 8 ≤ zone.toNat → zone.toNat < 255 → refused zone up .badNumber) ∧
      (∀ up : Byte, 48 ≤ up.toNat → up.toNat < 255 → refused (byteOf z.val) up .badNumber) ∧
      (¬ranged → refused (byteOf z.val) (byteOf u.val) .channels ∧ refused (byteOf z.val) 0xFF .channels) ∧
      (ranged → moves →
        refused (byteOf z.val) (byteOf u.val) .hasAllotments ∧ refused (byteOf z.val) 0xFF .hasAllotments) ∧
      (ranged → ¬moves → refused (byteOf z.val) (byteOf d.val) .selfUpstream) ∧
      (ranged → ¬moves → u ≠ d →
        ((s.sled u).placement = none → refused (byteOf z.val) (byteOf u.val) .upstreamUnplaced) ∧
          ((s.sled u).placement.isSome → d ∈ s.upstreams 48 u → refused (byteOf z.val) (byteOf u.val) .cycle) ∧
          ((s.sled u).placement.isSome → d ∉ s.upstreams 48 u → 3 < s.hopsUp u + 1 + s.hopsDown d →
            refused (byteOf z.val) (byteOf u.val) .tooDeep)) ∧
      (∀ up : Byte,
        ((s.sled d).placement.isSome → (s.sled d).handles ≠ [] → refused 0xFF up .hasAllotments) ∧
          ((s.sled d).handles = [] → (∃ e : SledNo, s.upstreamOf e = some d) → refused 0xFF up .isUpstream))

/-! ## Contracts -/

/-- R7 to R11: an INSTALL on a placed sled, with a handle free, a mask within the channel count that overlaps no living
allotment, idle below peak, and a floor that fits the contract budget (each fault of RANGE, ORDER and CONTRACT
adjusted, or none), takes the top handle, writes the record with its first values, and adds to the sled's list, the
floor sum, the count and X. On a LINKED or SILENT sled a GRANT of value idle with sequence 1 is placed at once. -/
def Obligations.InstallWritesRecord : Prop :=
  ∀ (s : State) (d : SledNo) (p : Placement) (h : Handle) (tenant mask : Byte) (idle peak floor ceiling : Half)
    (weight : Byte) (wake : Bool), s.Accepting → s.TableLaw →
    (s.sled d).placement = some p → s.stack.head? = some h →
    let m : ChannelMask := mask.setWidth 4
    let i := min idle.toNat 1022
    let k := max 1 (min peak.toNat 1023)
    let f0 := min floor.toNat 1023
    let c0 := min ceiling.toNat 1023
    let f1 := min k (max i f0)
    let c1 := min k (max f1 c0)
    let v := s.zone p.zone
    let f := if v.floorSum + f1 ≤ v.cb then f1 else v.cb - v.floorSum
    let outside := 1022 < idle.toNat ∨ peak.toNat = 0 ∨ 1023 < peak.toNat ∨ 1023 < floor.toNat ∨
      1023 < ceiling.toNat ∨ weight.toNat = 0 ∨ 15 < weight.toNat
    let disordered := f1 ≠ f0 ∨ c1 ≠ c0
    let first : Allotment :=
      { tag := .live, tenant, sled := d, mask := m, idle := i, peak := k, floor := f, ceiling := c1
        weight := max 1 (min weight.toNat 15), wake, partner := none, demand := none, demandUsed := none, target := i
        sent := i, sequence := 0, acked := i, highest := i, grant := .unlinked, restatements := 0
        wakeAfter := false, mark := false, latest := .none, unacked := 0, fallbackFloor := f }
    mask.toNat < 16 → m ≠ 0 → (∀ c : Fin 4, m.getLsbD c.val = true → c.val < p.channels) →
    (∀ (j : Handle) (q : Allotment), s.allot j = some q → q.sled = d → q.mask &&& m = 0) → i < k →
    (s.port.masks.range = true ∨ ¬outside) → (s.port.masks.order = true ∨ ¬disordered) →
    (v.floorSum + f1 ≤ v.cb ∨ s.port.masks.contract = true ∧ v.floorSum + i ≤ v.cb) →
    Completes
      (.install tenant (byteOf d.val) mask idle peak floor ceiling weight (if wake then 0x01 else 0x00)) s fun t =>
      s.AnswersApplied t 0x06 ⟨decide outside, decide disordered, decide (v.cb < v.floorSum + f1)⟩ [byteOf h.val] ∧
        s.stack = h :: t.stack ∧
        (∃ q, t.allot h = some q ∧
          Allotment.SameButMark
            (if s.reachable d then
              { first with
                grant := .changing, sequence := 1, unacked := 1, latest := .grant 1 (windowFor i k f) f }
            else first) q) ∧
        t.sleds = s.sleds.set d { s.sled d with handles := insertHandle h (s.sled d).handles } ∧
        Zone.SameButSums { v with floorSum := v.floorSum + f, count := v.count + 1 } (t.zone p.zone) ∧
        (t.zone p.zone).x = v.x + i ∧ s.RaisedNormal t p.zone ∧
        (∀ y : ZoneNo, y ≠ p.zone → (s.zone y).SameButSums (t.zone y) ∧ (t.zone y).x = (s.zone y).x) ∧
        (∀ j : Handle, j ≠ h → s.SameRecord t j) ∧
        t.stations =
          (if s.reachable d then
            s.stations.set (stationOf d)
              { s.station (stationOf d) with
                queue := enqueue d ⟨h, 1, m, .grant 1 (windowFor i k f)⟩ (s.station (stationOf d)).queue }
          else s.stations) ∧
        t = { s with
          allotments := t.allotments, stack := t.stack, zones := t.zones, sleds := t.sleds, stations := t.stations
          service := t.service, pointer := t.pointer, port := t.port, readyPin := t.readyPin, mdo := t.mdo }

/-- R7, R8, R9: the refusals of INSTALL in their order: the sled unplaced, the table full, the mask empty, outside or
overlapping; under RANGE refuse the first quantity out of range; peak not above idle whatever the setting; under ORDER
refuse the first step found; and a floor beyond the room. -/
def Obligations.InstallRefusalsInOrder : Prop :=
  ∀ (s : State) (d : SledNo) (tenant mask weight : Byte) (idle peak floor ceiling : Half) (wake : Bool),
    s.Accepting → s.TableLaw → mask.toNat < 16 →
    let refused (x : Detail) : Prop :=
      Completes
        (.install tenant (byteOf d.val) mask idle peak floor ceiling weight (if wake then 0x01 else 0x00)) s fun t =>
        s.Refused t 0x06 (some tenant) x
    let m : ChannelMask := mask.setWidth 4
    ((s.sled d).placement = none → refused .sledUnplaced) ∧
      ((s.sled d).placement.isSome → s.stack = [] → refused .tableFull) ∧
      ∀ p : Placement, (s.sled d).placement = some p → s.stack ≠ [] →
        let within := ∀ c : Fin 4, m.getLsbD c.val = true → c.val < p.channels
        let disjoint := ∀ (j : Handle) (q : Allotment), s.allot j = some q → q.sled = d → q.mask &&& m = 0
        (m = 0 → refused .maskEmpty) ∧ (m ≠ 0 → ¬within → refused .maskOutside) ∧
          (m ≠ 0 → within → ¬disjoint → refused .maskOverlap) ∧
          (m ≠ 0 → within → disjoint → s.port.masks.range = false →
            (1022 < idle.toNat → refused .idle) ∧
              (idle.toNat ≤ 1022 →
                (peak.toNat = 0 ∨ 1023 < peak.toNat → refused .peak) ∧
                  (1 ≤ peak.toNat → peak.toNat ≤ 1023 →
                    (1023 < floor.toNat → refused .floor) ∧
                      (floor.toNat ≤ 1023 → 1023 < ceiling.toNat → refused .ceiling) ∧
                      (floor.toNat ≤ 1023 → ceiling.toNat ≤ 1023 → weight.toNat = 0 ∨ 15 < weight.toNat →
                        refused .weight)))) ∧
          (m ≠ 0 → within → disjoint →
            s.port.masks.range = true ∨ idle.toNat ≤ 1022 ∧ (1 ≤ peak.toNat ∧ peak.toNat ≤ 1023) ∧
              floor.toNat ≤ 1023 ∧ ceiling.toNat ≤ 1023 ∧ (1 ≤ weight.toNat ∧ weight.toNat ≤ 15) →
            let i := min idle.toNat 1022
            let k := max 1 (min peak.toNat 1023)
            let f0 := min floor.toNat 1023
            let c0 := min ceiling.toNat 1023
            let f1 := min k (max i f0)
            let v := s.zone p.zone
            (k ≤ i → refused .peakNotAboveIdle) ∧
              (i < k → s.port.masks.order = false →
                (f0 < i → refused .floorBelowIdle) ∧ (i ≤ f0 → k < f0 → refused .floorAbovePeak) ∧
                  (i ≤ f0 → f0 ≤ k → c0 < f0 → refused .ceilingBelowFloor) ∧
                  (i ≤ f0 → f0 ≤ c0 → k < c0 → f0 ≤ k → refused .ceilingAbovePeak)) ∧
              (i < k → s.port.masks.order = true ∨ i ≤ f0 ∧ f0 ≤ c0 ∧ c0 ≤ k → v.cb < v.floorSum + f1 →
                s.port.masks.contract = false ∨ v.cb < v.floorSum + i → refused .noRoom))

/-- R12, R13, R15: an AMEND with an empty selection changes nothing; one that selects something writes the floor, the
ceiling, the weight and a selected wake flag into a LIVE record and its partner, each fault adjusted or none, and
nothing into any other; the floor sum moves by the change of each; a lowered ceiling lowers the target of each to its new
ce; each of them then above its target is decreased at once, and a changed floor is sent in a floor refresh to each (R75);
and a change beyond the wake flag requests the zone, a change of the wake flag alone does not. What a partner's wake
flag and a floor refresh do, and the order, are the model's reading (logs 11 to 13). -/
def Obligations.AmendWritesContract : Prop :=
  ∀ (s : State) (h : Handle) (r : Allotment) (z : ZoneNo) (n weight wake : Byte) (floor ceiling : Half),
    s.Accepting → s.RecordLaws → s.allot h = some r → r.tag = .live → s.zoneOf r = some z →
    let v := s.zone z
    let members := if r.partner.isSome then 2 else 1
    let f0 := if n.getLsbD 0 then min floor.toNat 1023 else r.floor
    let c0 := if n.getLsbD 1 then min ceiling.toNat 1023 else r.ceiling
    let w := if n.getLsbD 2 then max 1 (min weight.toNat 15) else r.weight
    let f1 := min r.peak (max r.idle f0)
    let c := min r.peak (max f1 c0)
    let room := (v.cb + members * r.floor - v.floorSum) / members
    let beyond := r.floor < f1 ∧ room < f1
    let f := if beyond then room else f1
    let outside := (n.getLsbD 0 = true ∧ 1023 < floor.toNat) ∨ (n.getLsbD 1 = true ∧ 1023 < ceiling.toNat) ∨
      (n.getLsbD 2 = true ∧ (weight.toNat = 0 ∨ 15 < weight.toNat))
    let disordered := f1 ≠ f0 ∨ c ≠ c0
    let amended (q : Allotment) : Allotment :=
      { q with
        floor := f, ceiling := c, weight := w
        wake := if n.getLsbD 3 then wake == 0x01 else q.wake }
    n.toNat < 16 → (n.getLsbD 3 = true → wake.toNat ≤ 1) →
    (s.port.masks.range = true ∨ ¬outside) → (s.port.masks.order = true ∨ ¬disordered) →
    (s.port.masks.contract = true ∨ ¬beyond) →
    Completes (.amend (byteOf h.val) n floor ceiling weight wake) s fun t =>
      if n = 0 then s.AnswersDone t 0x07 false [] ∧ s.SameButPort t
      else
        s.AnswersApplied t 0x07 ⟨decide outside, decide disordered, decide beyond⟩ [] ∧
          (∀ (j : Handle) (q : Allotment), s.allot j = some q → j = h ∨ r.partner = some j →
            ∃ u, t.allot j = some u ∧ (amended q).SameContractFields u ∧ u.demand = q.demand ∧
              u.target = if c < r.ceiling then min q.target (s.ceInForce (amended q)) else q.target) ∧
          (∀ (j : Handle) (q u : Allotment), s.allot j = some q → t.allot j = some u → j = h ∨ r.partner = some j →
            s.mayPlace q = true → u.target < q.sent ∨ f ≠ r.floor →
            q.grant = .changing ∨ q.grant = .settled ∨ q.grant = .held ∨ q.grant = .parkPending →
            u.sent = min u.target q.sent ∧ u.sequence = q.sequence + 1 ∧ u.highest = q.highest ∧
              u.latest = .grant (windowFor q.idle q.peak u.sent) (windowFor q.idle q.peak f) f ∧
              u.grant = if q.grant = .parkPending then .parkPending else .changing) ∧
          (∀ j : Handle, j ≠ h → r.partner ≠ some j → s.SameRecord t j) ∧
          (t.zone z).floorSum + members * r.floor = v.floorSum + members * f ∧
          Zone.SameButSums { v with floorSum := (t.zone z).floorSum } (t.zone z) ∧
          (∀ y : ZoneNo, y ≠ z → (s.zone y).SameButSums (t.zone y) ∧ (t.zone y).x = (s.zone y).x) ∧
          (f ≠ r.floor ∨ c ≠ r.ceiling ∨ w ≠ r.weight → s.RaisedNormal t z) ∧
          (f = r.floor → c = r.ceiling → w = r.weight → s.QuietLaw →
            t.service = s.service ∧ t.pointer = s.pointer ∧
              ∀ y : ZoneNo, (t.zone y).normalReq = (s.zone y).normalReq ∧ (t.zone y).urgentReq = (s.zone y).urgentReq) ∧
          (∀ st : StationNo, (s.station st).SameButQueue (t.station st)) ∧
          t = { s with
            allotments := t.allotments, zones := t.zones, stations := t.stations, service := t.service
            pointer := t.pointer, port := t.port, readyPin := t.readyPin, mdo := t.mdo }

/-- R14: AMEND_TENANT, its percentage in range or adjusted, gives every LIVE record whose masked tenant matches, and its
partner, ceiling max(floor, peak × P / 100), lowers the target of each whose ceiling fell to the new ce, requests each
zone that holds a record whose ceiling changed, and answers how many changed; under RANGE refuse a percentage of 0 or
above 100 is refused with PERCENT. -/
def Obligations.AmendTenantWritesCeilings : Prop :=
  ∀ (s : State) (tenant mask percent : Byte), s.Accepting → s.RecordLaws →
    let outside := percent.toNat = 0 ∨ 100 < percent.toNat
    let p := max 1 (min percent.toNat 100)
    let selected (q : Allotment) : Prop := q.tag = .live ∧ q.tenant &&& mask = tenant &&& mask
    let changed (t : State) (h : Handle) : Bool := (s.allot h).map (·.ceiling) != (t.allot h).map (·.ceiling)
    if outside ∧ s.port.masks.range = false then
      Completes (.amendTenant tenant mask percent) s fun t => s.Refused t 0x08 (some tenant) .percent
    else
      Completes (.amendTenant tenant mask percent) s fun t =>
        s.AnswersApplied t 0x08 ⟨decide outside, false, false⟩
            [byteOf ((List.finRange 160).filter (changed t)).length] ∧
          (∀ (h : Handle) (q : Allotment), s.allot h = some q →
            ∃ u, t.allot h = some u ∧
              (selected q ∨ (∃ k o, q.partner = some k ∧ s.allot k = some o ∧ selected o) →
                u.ceiling = max q.floor (q.peak * p / 100)) ∧
              (¬selected q → (∀ k o, q.partner = some k → s.allot k = some o → ¬selected o) →
                u.ceiling = q.ceiling) ∧
              { q with ceiling := u.ceiling }.SameContractFields u ∧ u.demand = q.demand ∧
              u.target =
                if u.ceiling < q.ceiling then min q.target (s.ceInForce { q with ceiling := u.ceiling })
                else q.target) ∧
          (∀ h : Handle, s.allot h = none → t.allot h = none) ∧
          (∀ (h : Handle) (q : Allotment) (z : ZoneNo), changed t h = true → s.allot h = some q →
            s.zoneOf q = some z → s.RaisedNormal t z) ∧
          (∀ z : ZoneNo, (s.zone z).SameButSums (t.zone z)) ∧
          (∀ st : StationNo, (s.station st).SameButQueue (t.station st)) ∧
          t = { s with
            allotments := t.allotments, zones := t.zones, stations := t.stations, service := t.service
            pointer := t.pointer, port := t.port, readyPin := t.readyPin, mdo := t.mdo }

/-- R15, R16, R17: PAIR of two LIVE unpaired records of different sleds of one zone with equal contracts, both parked or
neither, writes the two partner fields and requests the zone; of a pair that stands it answers ALREADY; and the
CONFLICT faults refuse it in their order. UNPAIR clears both partner fields and requests the zone, and answers ALREADY
for a record with no partner. Both leave every grant as it stands. -/
def Obligations.PairAndUnpair : Prop :=
  ∀ (s : State) (h k : Handle) (a b : Allotment) (z : ZoneNo), s.Accepting → s.PairLaw →
    s.allot h = some a → s.allot k = some b → s.zoneOf a = some z →
    let pair := Instr.pair (byteOf h.val) (byteOf k.val)
    let unpair := Instr.unpair (byteOf h.val)
    let refused (x : Detail) : Prop := Completes pair s fun t => s.Refused t 0x09 (some (byteOf h.val)) x
    let kept (t : State) : Prop :=
      s.RaisedNormal t z ∧ (∀ j : Handle, j ≠ h → j ≠ k → s.SameRecord t j) ∧
        (∀ y : ZoneNo, (s.zone y).SameButSums (t.zone y) ∧ (t.zone y).x = (s.zone y).x) ∧
        t = { s with
          allotments := t.allotments, zones := t.zones, service := t.service, pointer := t.pointer, port := t.port
          readyPin := t.readyPin, mdo := t.mdo }
    let writes (t : State) (p q : Option Handle) : Prop :=
      (∃ u, t.allot h = some u ∧ Allotment.SameButMark { a with partner := p } u) ∧
        ∃ u, t.allot k = some u ∧ Allotment.SameButMark { b with partner := q } u
    (a.tag = .live → b.tag = .live →
      (a.partner = some k → Completes pair s fun t => s.AnswersDone t 0x09 true [] ∧ s.SameButPort t) ∧
        (h = k → refused .sameHandle) ∧
        (h ≠ k → a.partner ≠ some k →
          (a.partner.isSome ∨ b.partner.isSome → refused .paired) ∧
            (a.partner = none → b.partner = none →
              (a.sled = b.sled → refused .sameSled) ∧
                (a.sled ≠ b.sled → s.zoneOf b ≠ some z → refused .zoneDiffers) ∧
                (a.sled ≠ b.sled → s.zoneOf b = some z →
                  let equal := a.idle = b.idle ∧ a.peak = b.peak ∧ a.floor = b.floor ∧ a.ceiling = b.ceiling ∧
                    a.weight = b.weight
                  let parked (g : GrantState) : Prop := g = .parkPending ∨ g = .parking ∨ g = .parked
                  (¬equal → refused .contractDiffers) ∧
                    (equal → ¬(parked a.grant ↔ parked b.grant) → refused .parkDiffers) ∧
                    (equal → (parked a.grant ↔ parked b.grant) →
                      Completes pair s fun t =>
                        s.AnswersDone t 0x09 false [] ∧ writes t (some k) (some h) ∧ kept t))))) ∧
      (a.partner = some k →
        Completes unpair s fun t => s.AnswersDone t 0x0A false [] ∧ writes t none none ∧ kept t) ∧
      (a.partner = none → Completes unpair s fun t => s.AnswersDone t 0x0A true [] ∧ s.SameButPort t)

/-- R149, R150, R151, R153: PARK of a LIVE record, or of every LIVE record of a placed sled, moves each record and its
partner by its grant state and its sled's link state; a SETTLED or HELD record of a LINKED or SILENT sled has its PARK
placed, which then stands in the sled's waiting frame; X stands where no record parked on an IDLE sled held more than idle;
no other record changes and no request is raised. It answers ALREADY where no grant state changed. -/
def Obligations.ParkMovesByState : Prop :=
  ∀ s : State, s.Accepting → s.RecordLaws →
    let row (g : GrantState) (link : Link) : Option GrantState :=
      match g, link with
      | .settled, .linked | .settled, .silent | .held, .linked | .held, .silent => some .parking
      | .settled, .lost | .held, .lost => some .parking
      | .settled, .idle | .held, .idle => some .parked
      | .changing, .linked | .changing, .silent | .changing, .lost => some .parkPending
      | .unlinked, _ => some .parked
      | .fallen, .lost => some .parking
      | .parkPending, _ => some .parkPending
      | .parking, _ => some .parking
      | .parked, _ => some .parked
      | _, _ => none
    let parks (c : Instr) (named : Handle → Prop) : Prop :=
      (∀ (j : Handle) (q : Allotment), named j → s.allot j = some q → (row q.grant (s.sled q.sled).link).isSome) →
      ∃ already, (already = true ↔ ∀ (j : Handle) (q : Allotment), named j → s.allot j = some q →
          row q.grant (s.sled q.sled).link = some q.grant) ∧
        Completes c s fun t =>
          s.AnswersDone t 0x0B already [] ∧
            (∀ (j : Handle) (q : Allotment), named j → s.allot j = some q →
              ∃ u, t.allot j = some u ∧ q.SameContractFields u ∧ u.target = q.target ∧
                row q.grant (s.sled q.sled).link = some u.grant ∧
                (u.grant ≠ .parkPending →
                  u =
                    if (q.grant = .settled ∨ q.grant = .held) ∧ s.reachable q.sled = true then
                      { q with
                        grant := .parking, sequence := q.sequence + 1, restatements := 0
                        unacked := q.unacked + 1, latest := .park }
                    else { q with grant := u.grant })) ∧
            (∀ (j : Handle) (q : Allotment), named j → s.allot j = some q → q.grant = .settled ∨ q.grant = .held →
              s.reachable q.sled = true →
              ∃ f ∈ (t.station (stationOf q.sled)).queue, f.sled = q.sled ∧
                (⟨j, q.sequence + 1, q.mask, .park⟩ : Entry) ∈ f.entries) ∧
            (∀ j : Handle, ¬named j → t.allot j = s.allot j) ∧
            (∀ z : ZoneNo, t.zone z = { s.zone z with x := (t.zone z).x }) ∧
            (∀ z : ZoneNo,
              (∀ (j : Handle) (q : Allotment), named j → s.allot j = some q → s.zoneOf q = some z →
                (s.sled q.sled).link = .idle → q.exposure = q.idle) →
              (t.zone z).x = (s.zone z).x) ∧
            (∀ st : StationNo, (s.station st).SameButQueue (t.station st)) ∧
            t = { s with
              allotments := t.allotments, zones := t.zones, stations := t.stations, port := t.port
              readyPin := t.readyPin, mdo := t.mdo }
    (∀ (h : Handle) (r : Allotment), s.allot h = some r → r.tag = .live →
      parks (.park 0x00 (byteOf h.val)) fun j => j = h ∨ r.partner = some j) ∧
    (∀ d : SledNo, (s.sled d).link ≠ .unplaced →
      parks (.park 0x01 (byteOf d.val)) fun j =>
        ∃ (h : Handle) (r : Allotment), s.allot h = some r ∧ r.tag = .live ∧ r.sled = d ∧
          (j = h ∨ r.partner = some j)) ∧
    ∀ d : SledNo, (s.sled d).link = .unplaced →
      Completes (.park 0x01 (byteOf d.val)) s fun t => s.Refused t 0x0B (some 0x01) .sledUnplaced

/-- R156, R157: UNPARK of a record, or of every LIVE record of a placed sled, returns each PARKED record and its partner
to the grant at idle and requests their zone, marks a PARKING one to wake after its park, drops the park of a
PARK_PENDING one, and answers ALREADY where none of these stands; of a RETIRING record it has no effect. -/
def Obligations.UnparkReturnsRecords : Prop :=
  ∀ s : State, s.Accepting → s.RecordLaws → s.QuietLaw →
    let changes (q : Allotment) : Prop :=
      q.grant = .parked ∨ (q.grant = .parking ∧ q.wakeAfter = false) ∨ q.grant = .parkPending
    let unparks (c : Instr) (named : Handle → Prop) : Prop :=
      (¬(∃ j q, named j ∧ s.allot j = some q ∧ changes q) →
        Completes c s fun t => s.AnswersDone t 0x0C true [] ∧ s.SameButPort t) ∧
      ((∃ j q, named j ∧ s.allot j = some q ∧ changes q) →
        Completes c s fun t =>
          s.AnswersDone t 0x0C false [] ∧
            (∀ (j : Handle) (q : Allotment), named j → s.allot j = some q →
              ∃ u, t.allot j = some u ∧ q.SameContractFields u ∧ u.target = q.target ∧ u.demand = q.demand ∧
                (q.grant = .parked →
                  u.acked = q.idle ∧ u.restatements = 0 ∧
                    (u.grant = .changing ∨ u.grant = .settled ∨ u.grant = .held) ∧
                    (s.reachable q.sled = false →
                      Allotment.SameButMark
                        { q with
                          acked := q.idle, highest := q.idle, sent := q.idle, restatements := 0, grant := .held }
                        u) ∧
                    ∀ z, s.zoneOf q = some z → s.RaisedNormal t z) ∧
                (q.grant = .parking → Allotment.SameButMark { q with wakeAfter := true } u) ∧
                (q.grant = .parkPending → u.grant = .changing ∧ u.acked = q.acked)) ∧
            (∀ j : Handle, ¬named j → s.SameRecord t j) ∧
            (∀ z : ZoneNo, (s.zone z).SameButSums (t.zone z)) ∧
            (∀ st : StationNo, (s.station st).SameButQueue (t.station st)) ∧
            t = { s with
              allotments := t.allotments, zones := t.zones, stations := t.stations, service := t.service
              pointer := t.pointer, port := t.port, readyPin := t.readyPin, mdo := t.mdo })
    (∀ (h : Handle) (r : Allotment), s.allot h = some r →
      (r.tag = .live → unparks (.unpark 0x00 (byteOf h.val)) fun j => j = h ∨ r.partner = some j) ∧
        (r.tag = .retiring → unparks (.unpark 0x00 (byteOf h.val)) fun _ => False)) ∧
    (∀ d : SledNo, (s.sled d).link ≠ .unplaced →
      unparks (.unpark 0x01 (byteOf d.val)) fun j =>
        ∃ (h : Handle) (r : Allotment), s.allot h = some r ∧ r.tag = .live ∧ r.sled = d ∧
          (j = h ∨ r.partner = some j)) ∧
    ∀ d : SledNo, (s.sled d).link = .unplaced →
      Completes (.unpark 0x01 (byteOf d.val)) s fun t => s.Refused t 0x0C (some 0x01) .sledUnplaced

/-- R18, R20: RETIRE of a LIVE record breaks its pair, sets its target to idle, requests the zone and takes the first
path of its table: freed at once, its handle on top of the stack and its floor out of the sum, where it is UNLINKED,
its sled IDLE, or LOST with the fallback elapsed; kept RETIRING while the fallback runs; and otherwise its RELEASE is
placed, or waits where 15 placements are unacknowledged; a freeing that lowers X starts the headroom retry (R32). Of a
RETIRING record it answers ALREADY. What a record is while its RELEASE waits is the model's reading (log 10). -/
def Obligations.RetireTakesFirstPath : Prop :=
  ∀ (s : State) (h : Handle) (r : Allotment) (z : ZoneNo), s.Accepting → s.RecordLaws → s.allot h = some r →
    s.zoneOf r = some z → (s.sled r.sled).link ≠ .unplaced →
    let c := Instr.retire (byteOf h.val)
    let freed := r.grant = .unlinked ∨ (s.sled r.sled).link = .idle ∨
      ((s.sled r.sled).link = .lost ∧ (s.sled r.sled).elapsed = true)
    let level (q : Allotment) : Allotment :=
      if r.grant = .parked then { q with acked := q.idle, highest := q.idle, sent := q.idle } else q
    let retired : Allotment := level { r with tag := .retiring, partner := none, target := r.idle }
    let done (t : State) : Prop :=
      s.AnswersDone t 0x0D false [] ∧ s.RaisedNormal t z ∧
        (∀ k q, r.partner = some k → s.allot k = some q →
          ∃ u, t.allot k = some u ∧ { q with partner := none }.SameContractFields u) ∧
        (∀ j : Handle, j ≠ h → r.partner ≠ some j → s.SameContract t j) ∧
        (∀ y : ZoneNo, s.SameButFreed t y ∧ (y ≠ z → (t.zone y).x = (s.zone y).x)) ∧
        (∀ st : StationNo, (s.station st).SameButQueue (t.station st)) ∧
        t = { s with
          allotments := t.allotments, stack := t.stack, zones := t.zones, sleds := t.sleds, stations := t.stations
          service := t.service, pointer := t.pointer, port := t.port, readyPin := t.readyPin, mdo := t.mdo }
    (r.tag = .retiring → Completes c s fun t => s.AnswersDone t 0x0D true [] ∧ s.SameButPort t) ∧
      (r.tag = .live → freed →
        Completes c s fun t =>
          done t ∧ t.allot h = none ∧ t.stack = h :: s.stack ∧
            t.sleds = s.sleds.set r.sled
              { s.sled r.sled with handles := (s.sled r.sled).handles.filter fun j => j != h } ∧
            (∀ f ∈ (t.station (stationOf r.sled)).queue, f.sled = r.sled → ∀ e ∈ f.entries, e.handle ≠ h) ∧
            (t.zone z).floorSum + r.floor = (s.zone z).floorSum ∧ (t.zone z).count + 1 = (s.zone z).count ∧
            (0 < retired.exposure → s.Retried t z)) ∧
      (r.tag = .live → ¬freed → s.reachable r.sled = false →
        Completes c s fun t =>
          done t ∧ t.stack = s.stack ∧ t.sleds = s.sleds ∧ t.stations = s.stations ∧
            ∃ u, t.allot h = some u ∧ retired.SameButMark u) ∧
      (r.tag = .live → ¬freed → s.reachable r.sled = true →
        Completes c s fun t =>
          done t ∧ t.stack = s.stack ∧ t.sleds = s.sleds ∧
            (∀ y : ZoneNo, (s.zone y).SameButSums (t.zone y) ∧ (t.zone y).x = (s.zone y).x) ∧
            ∃ u, t.allot h = some u ∧
              Allotment.SameButMark
                (if r.unacked < 15 then
                  { retired with
                    grant := .changing, sequence := r.sequence + 1, restatements := 0, unacked := r.unacked + 1
                    latest := .release }
                else retired) u ∧
              (r.unacked < 15 →
                (t.station (stationOf r.sled)).queue =
                  enqueue r.sled ⟨h, r.sequence + 1, r.mask, .release⟩ (s.station (stationOf r.sled)).queue))

/-! ## Reset and RESTART -/

/-- R24, R43, R65, R85, R109, R129, R148, R171, R186: RESTART keeps contracts, pairs, demands, grants, budgets, sums and
thermal states; drops pending parks, snapshot marks, waiting frames, zone and sled causes and timers; sends every LINKED
or SILENT sled LOST without a cause; clears the flags and the last refused record; and requests every zone, of which the
apportioner takes the one at the phase after the pointer. -/
def Obligations.RestartKeepsContracts : Prop :=
  ∀ s : State, s.Accepting →
    let p := s.pointer + 1
    let z := s.table[p]
    Completes .restart s fun t =>
      t.port.building = some ⟨0x14, .done false, []⟩ ∧ t.port.state = .responding ∧ t.readyPin = false ∧
        t.port.masks = s.port.masks ∧ t.port.flags = StickyFlags.clear ∧ t.port.lastRefused = none ∧
        (∀ h : Handle, t.allot h =
          (s.allot h).map fun r =>
            { r with
              grant := if r.grant = .parkPending then .changing else r.grant
              mark := decide (s.zoneOf r = some z) }) ∧
        (∀ d : SledNo, t.sled d =
          match (s.sled d).link with
          | .linked | .silent => { s.sled d with link := .lost, fallbacks := 0, elapsed := false }
          | .unplaced | .idle | .lost => s.sled d) ∧
        (∀ y : ZoneNo, t.zone y = { s.zone y with normalReq := decide (y ≠ z), urgentReq := false }) ∧
        (∀ st : StationNo, t.station st = { s.station st with queue := [] }) ∧
        (∀ y : ZoneNo, t.attention.zones[y] = ⟨false, false⟩) ∧
        (∀ d : SledNo, t.attention.sleds[d] = ⟨false, false, false, false, false, false⟩ ∧
          t.warmTimers[d] = .stopped) ∧
        t.attention.device = s.attention.device ∧ t.attention.masks = s.attention.masks ∧
        t.attentionPin = s.attention.device ∧ t.pointer = p ∧
        (∃ v, t.service = some v ∧ v.zone = z ∧ v.budget = (s.zone z).budget ∧
          v.warmDerate = s.assessor.warmDerate ∧ v.hotDerate = s.assessor.hotDerate) ∧
        t = { s with
          allotments := t.allotments, zones := t.zones, sleds := t.sleds, stations := t.stations
          warmTimers := t.warmTimers, service := t.service, pointer := t.pointer, attention := t.attention
          attentionPin := t.attentionPin, port := t.port, readyPin := t.readyPin, mdo := t.mdo }

/-- R23, R42, R108, R128, R147, R170, R187, R188: power-on reset gives every state its power-on value from any state;
while RESET_N is held nothing but the two reset rows and the curtail inputs acts; and the end of reset samples the
curtail lines, starts the refresh timers, raises POWERED_UP and makes READY and ATTENTION active. That the queue and
the levels on the inputs are kept, and that nothing else acts while RESET_N is held, is the model's reading (log 9), as
are an end where no reset is held (log 3), what MDO holds (log 8), the first values of the running check byte and of
the building response (log 17) and that no device item is pending before the end of reset (log 27). -/
def Obligations.PowerOnResetAndResetEnd : Prop :=
  (∀ s : State, Completes .powerOnReset s fun t =>
    (∀ h : Handle, t.allot h = none) ∧ t.stack = List.finRange 160 ∧
      (∀ z : ZoneNo, t.zone z =
        { cb := 0, ob := 0, kb := 0, ramp := 16, deadband := 4, taken := false, firstTaken := false
          candidate := none, filter := .stopped, budget := 0, floorSum := 0, x := 0, short := false, spare := 0
          normalReq := false, urgentReq := false, count := 0 }) ∧
      (∀ d : SledNo, t.sled d =
        { placement := none, link := .unplaced, silence := 0, fallbacks := 0, elapsed := false, answered := false
          report := none, own := .normal, eff := .normal, handles := [] } ∧ t.warmTimers[d] = .stopped) ∧
      (∀ st : StationNo, t.station st =
        { queue := [], sending := none, interval := 10, pendingInterval := none, timer := .stopped }) ∧
      t.assessor =
        { warmOn := 160, warmOff := 152, hotOn := 176, hotOff := 168, criticalOn := 190, criticalOff := 180
          warmDerate := 75, hotDerate := 50 } ∧
      t.service = none ∧ (∀ p : Fin 16, (t.table[p]).val = p.val % 8) ∧ t.pointer = 15 ∧
      t.attention.anyUnmasked = false ∧ t.attention.anyMasked = false ∧
      (∀ st : StationNo, t.attention.masks[st] = false) ∧
      t.port =
        { state := .idle, command := [], received := 0, crc := 0xFF, latest := none
          response := some ⟨0x00, .done false, [0x0B, 0x48, Sys2Proof.Config.revision]⟩
          building := none, responseRead := true, masks := ⟨true, false, false⟩
          flags := StickyFlags.clear, lastRefused := none } ∧
      t.resetHeld = true ∧ t.readyPin = false ∧ t.attentionPin = false ∧ t.mdo = [] ∧
      t.curtailPins = s.curtailPins ∧ t.pending = s.pending) ∧
  (∀ (s : State) (c : Instr), s.resetHeld = true → c ≠ .powerOnReset → c ≠ .resetEnd →
    (∀ z level, c ≠ .curtailEdge z level) → exec c s = .next s) ∧
  (∀ s : State, s.resetHeld = true → Completes .resetEnd s fun t =>
    (∀ z : ZoneNo, t.zone z = { s.zone z with candidate := some s.curtailPins[z], filter := .running }) ∧
      (∀ st : StationNo, t.station st = { s.station st with timer := .running }) ∧
      t = { s with
        zones := t.zones, stations := t.stations, resetHeld := false, readyPin := true
        attention := { s.attention with device := true }, attentionPin := true }) ∧
  ∀ s : State, s.resetHeld = false → exec .resetEnd s = .next s

/-! ## Curtail lines and recomputes -/

/-- R28, R29, R30: an edge of a curtail line makes the level after it the candidate and starts the timer again, and an
edge back to the taken level stops it; at the expiry a candidate that differs from the taken level, or the first since
reset, is taken: B is computed afresh, CURTAIL_CHANGE raised, the urgent request set, and no contract moves; where B rises
the headroom retry raises the HELD records that pass (R27, R74). What an edge back leaves of the candidate, that a row at
the pin's own level is run as an edge, and that a stopped timer expires without effect, is the model's (logs 3 and
16). -/
def Obligations.CurtailFilterTakesLevel : Prop :=
  (∀ (s : State) (z : ZoneNo) (level : Bool), s.resetHeld = false →
    exec (.curtailEdge z level) s =
      .next { s with
        curtailPins := s.curtailPins.set z level
        zones := s.zones.set z
          (if (s.zone z).firstTaken = true ∧ level = (s.zone z).taken then
            { s.zone z with candidate := none, filter := .stopped }
          else { s.zone z with candidate := some level, filter := .running }) }) ∧
  ∀ (s : State) (z : ZoneNo), s.resetHeld = false →
    let v := s.zone z
    (v.filter = .stopped → exec (.persistenceTimerExpiry z) s = .next s) ∧
    (v.filter = .running → v.candidate = none ∨ (v.firstTaken = true ∧ v.candidate = some v.taken) →
      exec (.persistenceTimerExpiry z) s = .next { s with zones := s.zones.set z { v with filter := .stopped } }) ∧
    ∀ level : Bool, s.PairLaw → v.filter = .running → v.candidate = some level →
      v.firstTaken = false ∨ level ≠ v.taken →
      Completes (.persistenceTimerExpiry z) s fun t =>
        let b := if level then min v.ob v.kb else v.ob
        Zone.SameButSums { v with taken := level, firstTaken := true, filter := .stopped, budget := b } (t.zone z) ∧
          s.RaisedUrgent t z ∧
          t.attention =
            { s.attention with zones := s.attention.zones.set z { s.attention.zones[z] with curtail := true } } ∧
          t.attentionPin = true ∧
          (∀ h : Handle, s.SameContract t h) ∧ (b ≤ v.budget → ∀ h : Handle, s.SameRecord t h) ∧
          (v.budget < b → s.Retried t z) ∧
          (∀ y : ZoneNo, y ≠ z → (s.zone y).SameButSums (t.zone y) ∧ (t.zone y).x = (s.zone y).x) ∧
          (∀ st : StationNo, (s.station st).SameButQueue (t.station st)) ∧
          t = { s with
            allotments := t.allotments, zones := t.zones, stations := t.stations, service := t.service
            pointer := t.pointer, attention := t.attention, attentionPin := t.attentionPin }

/-- R59 to R62: the completion gives each record that is LIVE, marked and in no park state target min(computed, present
ce, present ceiling) and the snapshot's demand as demand used, and skips every other; it writes the short flag and the
spare, raises ZONE_SHORT on a rise of the flag, has each record of the zone whose target fell below its sent grant
decreased at once and each SETTLED or HELD one whose target is above it tested for its raise (R72 to R74), clears every
mark and frees the apportioner, which takes the next zone. -/
def Obligations.CompletionAppliesTargets : Prop :=
  ∀ (s : State) (v : Service), s.resetHeld = false → s.RecordLaws → s.SnapshotLaw → s.service = some v →
    let live := s.zone v.zone
    let takes (r : Allotment) : Prop := r.tag = .live ∧ r.mark = true ∧
      r.grant ≠ .parkPending ∧ r.grant ≠ .parking ∧ r.grant ≠ .parked
    Completes .recomputeCompletion s fun t =>
      (∀ (h : Handle) (r : Allotment), s.allot h = some r →
        ∃ u, t.allot h = some u ∧ r.SameContractFields u ∧ u.demand = r.demand ∧
          (∀ p ∈ v.targets, p.1.handle = h → takes r →
            u.target = min p.2 (min (s.ceInForce r) r.ceiling) ∧ u.demandUsed = p.1.demand) ∧
          (¬takes r ∨ (∀ p ∈ v.targets, p.1.handle ≠ h) → u.target = r.target ∧ u.demandUsed = r.demandUsed) ∧
          (s.zoneOf r = some v.zone → r.tag = .live → s.mayPlace r = true →
            r.grant = .changing ∨ r.grant = .settled ∨ r.grant = .held → u.target < r.sent →
            u.grant = .changing ∧ u.sent = u.target ∧ u.sequence = r.sequence + 1) ∧
          (s.zoneOf r = some v.zone → r.tag = .live → s.mayPlace r = true → r.grant = .settled ∨ r.grant = .held →
            r.sent < u.target → 0 < live.ramp →
            Allotment.RaiseTested live.ramp { r with target := u.target, demandUsed := u.demandUsed } u)) ∧
        t.HeadroomTried v.zone ∧ (∀ h : Handle, s.allot h = none → t.allot h = none) ∧
        (∃ m : State, t = m.serveRequests ∧ m.service = none ∧ m.table = s.table ∧ m.pointer = s.pointer ∧
          (∀ (h : Handle) (q : Allotment), m.allot h = some q → q.mark = false) ∧
          ∀ y : ZoneNo, (m.zone y).normalReq = (s.zone y).normalReq ∧ (m.zone y).urgentReq = (s.zone y).urgentReq) ∧
        Zone.SameButSums
          { live with
            short := v.isShort
            spare :=
              v.budget - (v.targets.map fun p =>
                match s.allot p.1.handle with
                | none => 0
                | some r => if takes r then min p.2 (min (s.ceInForce r) r.ceiling) else 0).sum }
          (t.zone v.zone) ∧
        (∀ y : ZoneNo, y ≠ v.zone → (s.zone y).SameButSums (t.zone y) ∧ (t.zone y).x = (s.zone y).x) ∧
        t.attention =
          (if v.isShort = true ∧ live.short = false then
            { s.attention with
              zones := s.attention.zones.set v.zone { s.attention.zones[v.zone] with short := true } }
          else s.attention) ∧
        (∀ st : StationNo, (s.station st).SameButQueue (t.station st)) ∧
        t = { s with
          allotments := t.allotments, zones := t.zones, stations := t.stations, service := t.service
          pointer := t.pointer, attention := t.attention, attentionPin := t.attentionPin }

/-- R45, R46, R47, R49: the apportioner, when free, takes the lowest zone with its urgent request set; else the zone of
the first phase after the pointer, 16 looked at, whose normal request is set, the pointer moving there; else the lowest
zone with its normal request set; and with no request pending none. The take clears both requests, marks the zone's
living records and holds its B, the derates and, for each of those records in ascending handle order, its tag, contract,
partner, demand, grant state and the effective thermal state of its sled. -/
def Obligations.ApportionerServiceOrder : Prop :=
  ∀ s : State, s.service = none →
    let t := s.serveRequests
    let took (z : ZoneNo) (p : Fin 16) : Prop :=
      t.pointer = p ∧
        t.zone z = { s.zone z with normalReq := false, urgentReq := false } ∧
        (∀ y : ZoneNo, y ≠ z → t.zone y = s.zone y) ∧
        (∀ h : Handle, t.allot h =
          (s.allot h).map fun r => { r with mark := r.mark || decide (s.zoneOf r = some z) }) ∧
        (∃ v, t.service = some v ∧ v.zone = z ∧ v.budget = (s.zone z).budget ∧
          v.warmDerate = s.assessor.warmDerate ∧ v.hotDerate = s.assessor.hotDerate ∧
          v.snaps.map (·.handle) = s.zoneHandles z ∧
          ∀ (h : Handle) (r : Allotment), s.allot h = some r → s.zoneOf r = some z →
            { handle := h, tag := r.tag, idle := r.idle, peak := r.peak, floor := r.floor, ceiling := r.ceiling
              weight := r.weight, partner := r.partner, demand := r.demand, grant := r.grant
              eff := (s.sled r.sled).eff } ∈ v.snaps) ∧
        t = { s with
          allotments := t.allotments, zones := t.zones, service := t.service, pointer := t.pointer }
    (∀ z : ZoneNo, (s.zone z).urgentReq = true → (∀ y < z, (s.zone y).urgentReq = false) → took z s.pointer) ∧
      ((∀ z : ZoneNo, (s.zone z).urgentReq = false) →
        (∀ k < 16, (s.zone s.table[s.pointer + 1 + Fin.ofNat 16 k]).normalReq = true →
          (∀ j < k, (s.zone s.table[s.pointer + 1 + Fin.ofNat 16 j]).normalReq = false) →
          took s.table[s.pointer + 1 + Fin.ofNat 16 k] (s.pointer + 1 + Fin.ofNat 16 k)) ∧
        ((∀ p : Fin 16, (s.zone s.table[p]).normalReq = false) →
          (∀ z : ZoneNo, (s.zone z).normalReq = true → (∀ y < z, (s.zone y).normalReq = false) → took z s.pointer) ∧
            ((∀ z : ZoneNo, (s.zone z).normalReq = false) → t = s)))

/-! ## The station link and the loss of sleds -/

/-- R121, R122, R125, R142, R143, R145: a refresh event advances the fallback count of each LOST sled of the station,
which elapses at 5, then the silence count of each LINKED or SILENT one, SILENT at 3 and LOST at 8; restates the latest
entry of each record of those that stay, counting it where it is unacknowledged and waits in no frame, and sends a sled
LOST at the fourth; and then lets a pending interval take effect unless it is shorter and a fallback is running. A fallback
that elapses frees the RETIRING records of its sled, brings each other that is not PARKED to the smaller of its exposure and
its fallback floor, FALLEN or PARKING, requests the zone and starts its headroom retry (R126, R195, R32); every other
contract stands. SLED_LOST is raised for each sled that goes LOST, and no other cause moves. That a frame counts as
it stood when the event found it (log 20), and the order of the sleds (log 23), is the model's. -/
def Obligations.RefreshEventCounts : Prop :=
  ∀ (s : State) (st : StationNo), s.resetHeld = false → s.TableLaw → s.PairLaw → s.QueueLaw → s.LinkLaw →
    s.RangeLaw → (s.station st).timer = .running →
    let elapses (d : SledNo) : Prop := stationOf d = st ∧ (s.sled d).link = .lost ∧ (s.sled d).elapsed = false ∧
      (s.sled d).fallbacks + 1 = 5
    let counted (r : Allotment) : Prop := r.grant = .changing ∨ r.grant = .parkPending ∨ r.grant = .parking
    Completes (.refreshEvent st) s fun t =>
      (∀ d : SledNo, stationOf d = st → (s.sled d).link = .lost → (s.sled d).elapsed = false →
        (t.sled d).link = .lost ∧ (t.sled d).fallbacks = (s.sled d).fallbacks + 1 ∧
          (t.sled d).elapsed = decide ((s.sled d).fallbacks + 1 = 5)) ∧
        (∀ d : SledNo, stationOf d = st → s.reachable d = true →
          let n := (s.sled d).silence + 1
          let limit := ∃ (h : Handle) (r : Allotment), s.allot h = some r ∧ r.sled = d ∧ counted r ∧
            r.latest ≠ .none ∧ s.frameHolds d h = false ∧ r.restatements = 3
          (t.sled d).silence = n ∧
            (8 ≤ n ∨ limit → (t.sled d).link = .lost ∧ (t.sled d).fallbacks = 0 ∧ (t.sled d).elapsed = false ∧
              t.attention.sleds[d].lost = true ∧ waitingFrame d (t.station st).queue = none) ∧
            (n < 8 → ¬limit →
              (t.sled d).link = (if 3 ≤ n then .silent else (s.sled d).link) ∧
                (∃ f ∈ (t.station st).queue, f.sled = d ∧
                  ∀ (h : Handle) (u : Allotment) (e : Entry), t.allot h = some u → u.sled = d →
                    u.latestEntry h = some e → e ∈ f.entries) ∧
                ∀ (h : Handle) (r : Allotment), s.allot h = some r → r.sled = d → counted r → r.latest ≠ .none →
                  ∃ u, t.allot h = some u ∧
                    Allotment.SameButMark
                      { r with
                        restatements := if s.frameHolds d h then r.restatements else r.restatements + 1 } u)) ∧
        (∀ d : SledNo, stationOf d ≠ st ∨
          (s.reachable d = false ∧ ((s.sled d).link ≠ .lost ∨ (s.sled d).elapsed = true)) → t.sled d = s.sled d) ∧
        (∀ p, (s.station st).pendingInterval = some p →
          let running := ∃ d : SledNo, stationOf d = st ∧ (t.sled d).link = .lost ∧ (t.sled d).elapsed = false
          t.station st =
            if (s.station st).interval ≤ p ∨ ¬running then
              { s.station st with interval := p, pendingInterval := none, queue := (t.station st).queue }
            else { s.station st with queue := (t.station st).queue }) ∧
        ((s.station st).pendingInterval = none → (s.station st).SameButQueue (t.station st)) ∧
        (∀ (h : Handle) (r : Allotment), s.allot h = some r → r.tag = .retiring → elapses r.sled → t.allot h = none) ∧
        (s.RecordLaws → ∀ (d : SledNo) (z : ZoneNo), elapses d → s.zoneOfSled d = some z → s.FellBack t d z) ∧
        (∀ d : SledNo,
          let gone := s.reachable d = true ∧ (t.sled d).link = .lost
          (gone → t.attention.sleds[d] = { s.attention.sleds[d] with lost := true }) ∧
            (¬gone → t.attention.sleds[d] = s.attention.sleds[d])) ∧
        t.attention = { s.attention with sleds := t.attention.sleds } ∧
        (s.AttentionLaw → t.attentionPin = t.attention.anyUnmasked) ∧
        (∀ h : Handle, (∀ r, s.allot h = some r → ¬(r.tag = .retiring ∧ elapses r.sled)) → s.SameContract t h) ∧
        (s.SumLaw → ∀ z : ZoneNo, s.SameButFreed t z) ∧
        (∀ y : StationNo, y ≠ st → (s.station y).SameButQueue (t.station y)) ∧
        t = { s with
          allotments := t.allotments, stack := t.stack, zones := t.zones, sleds := t.sleds, stations := t.stations
          service := t.service, pointer := t.pointer, attention := t.attention, attentionPin := t.attentionPin }

/-- R121, R123, R102, R169: the rows of a refresh event that the table lists on their own take effect when their
condition stands: a LINKED sled of silence count 3 goes SILENT; a LINKED or SILENT sled of silence count 8, or with a
record restated 4 times, goes LOST, its counters cleared, its frame removed and SLED_LOST raised, its records kept. The
expiry of a running THERMAL_WARM timer stops it and removes that cause alone. That the first two rows act by themselves,
and that a stopped timer expires without effect, is the model's choice (logs 3 and 6). -/
def Obligations.SledEventsOfTheirCondition : Prop :=
  ∀ (s : State) (d : SledNo), s.resetHeld = false →
    let goes := (s.sled d).link = .linked ∧ 3 ≤ (s.sled d).silence
    let lost := s.reachable d = true ∧ (8 ≤ (s.sled d).silence ∨
      ∃ h r, h ∈ (s.sled d).handles ∧ s.allot h = some r ∧ 4 ≤ r.restatements)
    (goes → exec (.goingSilent d) s = .next { s with sleds := s.sleds.set d { s.sled d with link := .silent } }) ∧
      (¬goes → exec (.goingSilent d) s = .next s) ∧
      (lost → Completes (.loss d) s fun t =>
        t = { s with
          sleds := s.sleds.set d { s.sled d with link := .lost, fallbacks := 0, elapsed := false }
          stations := s.stations.set (stationOf d)
            { s.station (stationOf d) with
              queue := (s.station (stationOf d)).queue.filter fun f => f.sled != d }
          attention :=
            { s.attention with sleds := s.attention.sleds.set d { s.attention.sleds[d] with lost := true } }
          attentionPin := t.attention.anyUnmasked }) ∧
      (¬lost → exec (.loss d) s = .next s) ∧
      (s.warmTimers[d] = .running → Completes (.warmTimerExpiry d) s fun t =>
        t = { s with
          warmTimers := s.warmTimers.set d .stopped
          attention :=
            { s.attention with sleds := s.attention.sleds.set d { s.attention.sleds[d] with warm := false } }
          attentionPin := t.attention.anyUnmasked }) ∧
      (s.warmTimers[d] = .stopped → exec (.warmTimerExpiry d) s = .next s)

/-- R20, R125, R126, R195: when the fallback of a LOST sled elapses each of its RETIRING records is freed, each PARKED
one kept, and each other set to the smaller of its exposure and its fallback floor, in PARKING where a park stood and
FALLEN where none did; the zone is requested where a record was freed or fell, and the headroom retry follows where an
exposure fell (R32). That this row acts by itself is the model's choice (log 6). -/
def Obligations.FallbackAssumesFloor : Prop :=
  ∀ (s : State) (d : SledNo) (z : ZoneNo), s.resetHeld = false → s.RecordLaws → s.zoneOfSled d = some z →
    let due := (s.sled d).link = .lost ∧ (s.sled d).elapsed = false ∧ 5 ≤ (s.sled d).fallbacks
    (¬due → exec (.fallback d) s = .next s) ∧
      (due → Completes (.fallback d) s fun t =>
        s.FellBack t d z ∧
          (∀ (h : Handle) (r : Allotment), s.allot h = some r → r.sled ≠ d → s.SameContract t h) ∧
          (∀ h : Handle, h ∈ t.stack ↔ t.allot h = none) ∧
          (∀ e : SledNo, e ≠ d → t.sled e = s.sled e) ∧
          t.sled d = { s.sled d with elapsed := true, handles := (t.sled d).handles } ∧
          (∀ y : ZoneNo, y ≠ z → (s.zone y).SameButSums (t.zone y) ∧ (t.zone y).x = (s.zone y).x) ∧
          s.SameButFreed t z ∧
          (∀ st : StationNo, (s.station st).SameButQueue (t.station st)) ∧
          t = { s with
            allotments := t.allotments, stack := t.stack, zones := t.zones, sleds := t.sleds
            stations := t.stations, service := t.service, pointer := t.pointer })

/-- R137, R138, R189: with the link free and a frame waiting, the start of a transmission takes the head frame out of
the queue and sends it closed: the address byte, with the sled's number, direction 0 and the parity that makes its ones odd;
the kind and the count of entries; the interval then in effect; the park mask of a WELCOME; each entry as section 11.3
gives it; and the check byte over the bytes as sent. Otherwise it does nothing; the completion frees the link and leaves the queue. That a start does nothing elsewhere is the
model's choice (log 3). -/
def Obligations.TransmissionSendsHeadFrame : Prop :=
  ∀ (s : State) (st : StationNo), s.resetHeld = false →
    let v := s.station st
    (∀ (f : Frame) (rest : List Frame), v.sending = none → v.queue = f :: rest →
      ∃ (address : Byte) (bytes : List Byte),
        address.toNat % 64 = f.sled.val ∧ address.getLsbD 6 = false ∧
        ((List.range 8).filter fun i => address.getLsbD i).length % 2 = 1 ∧
        bytes.dropLast =
          [address, byteOf ((match f.kind with | .welcome _ => 0x10 | .grant => 0x20) + f.entries.length),
            byteOf v.interval]
            ++ (match f.kind with | .welcome m => [m.setWidth 8] | .grant => [])
            ++ f.entries.flatMap (fun e =>
              [byteOf e.handle.val, byteOf (16 * e.sequence.toNat + e.mask.toNat)]
                ++ match e.kind with
                  | .grant w wf => [0x01, byteOf w, byteOf wf]
                  | .park => [0x02]
                  | .release => [0x03]) ∧
        bytes.getLast? = some (crc8 bytes.dropLast) ∧
        exec (.transmissionStart st) s =
          .next { s with
            stations := s.stations.set st { v with queue := rest, sending := some ⟨f, v.interval, bytes⟩ } }) ∧
      (v.sending.isSome ∨ v.queue = [] → exec (.transmissionStart st) s = .next s) ∧
      exec (.transmissionCompletion st) s =
        .next { s with stations := s.stations.set st { v with sending := none } }

/-! ## Uplink frames -/

/-- R117, R118, R119, R66, R93, R140, R194: a JOIN of the placed count from an IDLE or LOST sled, or a rejoin from a
LINKED or SILENT one that had answered its WELCOME, links the sled, makes its demands absent, and queues a WELCOME at
the tail, behind the frames that waited for other sleds, that parks the uncovered channels and carries the latest entry of
each record: RELEASE for a RETIRING one, PARK
for a parked or parking one, and else a GRANT, lowered at once where the target is below it. A rejoin first drops the sled's own frame and sets every record that is not PARKED to
idle, and its headroom retry, where X fell, may follow the WELCOME with new frames. A join from IDLE or LOST changes no
exposure and no other queue. -/
def Obligations.JoinLinksSled : Prop :=
  ∀ (s : State) (d : SledNo) (p : Placement) (count : Byte), s.resetHeld = false → s.RecordLaws → s.QueueLaw →
    (s.sled d).placement = some p → p.channels = count.toNat →
    let rejoins := s.reachable d = true ∧ (s.sled d).answered = true
    (s.sled d).link = .idle ∨ (s.sled d).link = .lost ∨ rejoins →
    let before (r : Allotment) : Allotment :=
      if rejoins ∧ r.grant ≠ .parked then { r with acked := r.idle, highest := r.idle, sent := r.idle } else r
    Completes (.join d count) s fun t =>
      t.sled d =
          { s.sled d with link := .linked, silence := 0, fallbacks := 0, elapsed := false, answered := false } ∧
        (∀ e : SledNo, e ≠ d → t.sled e = s.sled e) ∧ s.RaisedNormal t p.zone ∧
        (∀ (h : Handle) (r : Allotment), s.allot h = some r → r.sled = d →
          ∃ u, t.allot h = some u ∧ r.SameContractFields u ∧ u.demand = none ∧ u.target = r.target ∧
            u.restatements = 0 ∧ u.exposure = (before r).exposure ∧
            (r.tag = .retiring → u.latest = .release ∧ u.grant = .changing ∧ u.sequence = r.sequence + 1) ∧
            (r.tag = .live → r.grant = .parked ∨ r.grant = .parking ∨ r.grant = .parkPending →
              u.latest = .park ∧ u.grant = .parking ∧ u.sequence = r.sequence + 1) ∧
            (r.tag = .live → r.grant ≠ .parked → r.grant ≠ .parking → r.grant ≠ .parkPending →
              let value := min (before r).exposure r.ceiling
              let sent := if r.target < value then r.target else value
              u.grant = .changing ∧ u.sent = sent ∧
                u.sequence = r.sequence + (if r.target < value then 2 else 1) ∧
                u.latest = .grant (windowFor r.idle r.peak sent) (windowFor r.idle r.peak r.floor) r.floor)) ∧
        (∀ (h : Handle) (r : Allotment), s.allot h = some r → r.sled ≠ d → s.SameContract t h) ∧
        (∃ (m : ChannelMask) (entries : List Entry) (pre post : List Frame),
          let waited := (s.station (stationOf d)).queue.filter fun f => f.sled != d
          (t.station (stationOf d)).queue = pre ++ ⟨d, .welcome m, entries⟩ :: post ∧
            pre.map (fun f => (f.sled, f.kind)) = waited.map (fun f => (f.sled, f.kind)) ∧
            (∀ f ∈ post, f.kind = .grant ∧ f.sled ≠ d ∧ ∀ g ∈ waited, g.sled ≠ f.sled) ∧
            (¬rejoins → pre = waited ∧ post = []) ∧ entries.map (·.handle) = (s.sled d).handles ∧
            (∀ e ∈ entries, ∃ u, t.allot e.handle = some u ∧ u.latestEntry e.handle = some e) ∧
            ∀ c : Fin 4, m.getLsbD c.val = true ↔
              c.val < p.channels ∧ ∀ h r, s.allot h = some r → r.sled = d → r.mask.getLsbD c.val = false) ∧
        (¬rejoins →
          (∀ z : ZoneNo, (t.zone z).x = (s.zone z).x) ∧
            (∀ st : StationNo, st ≠ stationOf d → t.station st = s.station st) ∧
            ∀ h r, s.allot h = some r → r.sled ≠ d → s.SameRecord t h) ∧
        (rejoins → s.RangeLaw → (∃ h r, s.allot h = some r ∧ r.sled = d ∧ r.grant ≠ .parked ∧ r.idle < r.exposure) →
          t.HeadroomTried p.zone) ∧
        (∀ z : ZoneNo, (s.zone z).SameButSums (t.zone z)) ∧
        (∀ st : StationNo, (s.station st).SameButQueue (t.station st)) ∧
        t = { s with
          allotments := t.allotments, zones := t.zones, sleds := t.sleds, stations := t.stations
          service := t.service, pointer := t.pointer }

/-- R116, R118, R120: a JOIN of an UNPLACED sled or of another count raises JOIN_REFUSED, and one that repeats a JOIN
whose WELCOME is not yet answered raises nothing; either sets the silence count of a LINKED sled to 0 and changes
nothing else. -/
def Obligations.JoinRefusedOrRepeated : Prop :=
  ∀ (s : State) (d : SledNo) (count : Byte), s.resetHeld = false →
    let heard :=
      if (s.sled d).link = .linked then s.sleds.set d { s.sled d with silence := 0 } else s.sleds
    ((∀ p, (s.sled d).placement = some p → p.channels ≠ count.toNat) →
      Completes (.join d count) s fun t =>
        t.attentionPin = t.attention.anyUnmasked ∧
          t = { s with
            sleds := heard, attentionPin := t.attentionPin
            attention :=
              { s.attention with
                sleds := s.attention.sleds.set d { s.attention.sleds[d] with refused := true } } }) ∧
    ∀ p, (s.sled d).placement = some p → p.channels = count.toNat → s.reachable d = true →
      (s.sled d).answered = false → exec (.join d count) s = .next { s with sleds := heard }

/-- R88 to R94, R96, R97, R120: a REPORT of the placed count from a LINKED or SILENT sled is heard and assessed: each
living record receives its demand, a demand that passes the deadband test requests the zone, a PARKED record that wakes
on demand and is deferred is unparked, and the own thermal state is evaluated, SENSOR raised where every channel carries
the fault code; each sled whose effective state changes takes the consequences (R100 to R102), and no other item or timer
moves. What a wake on demand makes of a partner (log 24), and that the test compares with demand used as it stands while
a recompute is in service too (log 26), is the model's. One of another count is heard only, and one from any other sled
changes nothing. -/
def Obligations.ReportAssessed : Prop :=
  ∀ (s : State) (d : SledNo) (ts : List Triple), s.resetHeld = false → 1 ≤ ts.length → ts.length ≤ 4 →
    let whole := ∃ p, (s.sled d).placement = some p ∧ p.channels = ts.length
    (s.reachable d = false → exec (.report d ts) s = .next s) ∧
      (s.reachable d = true → ¬whole →
        exec (.report d ts) s =
          .next { s with
            sleds := s.sleds.set d { s.sled d with link := .linked, silence := 0, answered := true } }) ∧
      (s.reachable d = true → whole → s.RecordLaws →
        Completes (.report d ts) s fun t =>
          t.sled d =
              { s.sled d with
                link := .linked, silence := 0, answered := true, report := some ts, eff := (t.sled d).eff
                own :=
                  match sledTemperature ts with
                  | some temperature => s.assessor.evaluate temperature (s.sled d).own
                  | none => if (s.sled d).own = .critical then .critical else .hot } ∧
            (sledTemperature ts = none → t.attention.sleds[d].sensor = true) ∧
            (s.ChainLaw → s.EffectiveLaw → ∀ e : SledNo,
              s.ThermalConsequences t e (s.sled e).eff (decide (e = d ∧ sledTemperature ts = none))) ∧
            t.attention = { s.attention with sleds := t.attention.sleds } ∧
            (∀ e : SledNo, e ≠ d → t.sled e = { s.sled e with eff := (t.sled e).eff }) ∧
            (∀ (h : Handle) (r : Allotment) (z : ZoneNo), s.allot h = some r → r.sled = d → s.zoneOf r = some z →
              let covered := coveredTriples r.mask ts
              let deferred := ∃ x ∈ covered, x.deferred = true
              let demand :=
                if deferred then deferredDemand (s.zone z).ramp r.idle r.peak r.sent
                else activityDemand r.idle r.peak ((covered.map (·.activity.toNat)).sum / covered.length)
              (∃ u, t.allot h = some u ∧ r.SameContractFields u ∧ u.demand = some demand ∧
                (r.grant = .parked → r.tag = .live → r.wake = true → deferred →
                  u.grant = .changing ∨ u.grant = .settled ∨ u.grant = .held) ∧
                (r.grant = .parked → r.wake = false ∨ ¬deferred → u.grant = .parked)) ∧
              (r.tag = .live → r.grant = .changing ∨ r.grant = .settled ∨ r.grant = .held →
                (∀ used, r.demandUsed = some used → (s.zone z).deadband ≤ (demand - used) + (used - demand)) →
                s.RaisedNormal t z)) ∧
            (∀ h : Handle, s.SameContract t h) ∧
            (∀ z : ZoneNo, (s.zone z).SameButSums (t.zone z)) ∧
            (∀ st : StationNo, (s.station st).SameButQueue (t.station st)) ∧
            t = { s with
              allotments := t.allotments, zones := t.zones, sleds := t.sleds, stations := t.stations
              warmTimers := t.warmTimers, service := t.service, pointer := t.pointer, attention := t.attention
              attentionPin := t.attentionPin })

/-- R76 to R78, R19, R158: a pair of an ACK from a LINKED or SILENT sled that names one of its records with the latest
sequence settles a GRANT at the sent grant (its fallback floor, counters and state with it), completes a PARK or wakes
it, frees a RETIRING record at its RELEASE, and places what waited for the acknowledgement; a pair for any other handle
or sequence is ignored; an ACK from any other sled changes nothing. Of an ACK of one pair: a record below its target is
raised by one step exactly where its headroom test passes, and is HELD where it does not (R71, R72); of a pair of records
whose partner is ready both are tested and raised together (R73), the partner HELD below its target also where the record
stands at its own (R77; log 15); and the headroom retry follows where the exposure fell (R32, R74). -/
def Obligations.AckSettlesLatestEntry : Prop :=
  ∀ (s : State) (d : SledNo) (ps : List AckPair), s.resetHeld = false → 1 ≤ ps.length → ps.length ≤ 4 →
    let heard := s.sleds.set d { s.sled d with link := .linked, silence := 0, answered := true }
    let named (h : Handle) (r : Allotment) : Prop := ⟨byteOf h.val, r.sequence⟩ ∈ ps
    (s.reachable d = false → exec (.ack d ps) s = .next s) ∧
      (s.reachable d = true → s.QuietLaw → s.TableLaw →
        (∀ (h : Handle) (r : Allotment), s.allot h = some r → r.sled = d → ¬named h r) →
        exec (.ack d ps) s = .next { s with sleds := heard }) ∧
      (s.reachable d = true → s.RecordLaws → s.SettingsLaw → ps.Pairwise (fun a b => a.handle ≠ b.handle) →
        Completes (.ack d ps) s fun t =>
          (∀ (h : Handle) (r : Allotment), s.allot h = some r → r.sled = d → named h r →
            (∀ w wf f, r.tag = .live → r.grant = .changing → r.latest = .grant w wf f →
              ∃ u, t.allot h = some u ∧ r.SameContractFields u ∧ u.acked = r.sent ∧ u.target = r.target ∧
                u.restatements = 0 ∧
                (r.target = r.sent → (r.acknowledged f .settled).SameButMark u) ∧
                (r.target < r.sent → ((r.acknowledged f .settled).granted r.target).SameButMark u) ∧
                (r.sent < r.target → u.grant = .held ∨ (u.grant = .changing ∧ r.sent < u.sent ∧ u.sent ≤ r.target))) ∧
              (∀ w wf f, r.tag = .live → r.grant = .parkPending → r.latest = .grant w wf f →
                ∃ u, t.allot h = some u ∧
                  Allotment.SameButMark
                    { r with
                      acked := r.sent, highest := r.sent, restatements := 0, unacked := 1, fallbackFloor := f
                      grant := .parking, sequence := r.sequence + 1, latest := .park } u) ∧
              (r.grant = .parking → r.latest = .park → r.wakeAfter = false →
                ∃ u, t.allot h = some u ∧
                  Allotment.SameButMark { r with grant := .parked, restatements := 0, unacked := 0 } u) ∧
              (r.tag = .live → r.grant = .parking → r.latest = .park → r.wakeAfter = true →
                ∃ u, t.allot h = some u ∧ r.SameContractFields u ∧ u.wakeAfter = false ∧ u.acked = r.idle ∧
                  (u.grant = .changing ∨ u.grant = .settled ∨ u.grant = .held)) ∧
              (∀ w wf f, r.tag = .retiring → r.grant = .changing → r.latest = .grant w wf f →
                ∃ u, t.allot h = some u ∧
                  Allotment.SameButMark
                    { r with
                      acked := r.sent, highest := r.sent, restatements := 0, unacked := 1, fallbackFloor := f
                      sequence := r.sequence + 1, latest := .release } u) ∧
              (r.tag = .retiring → r.grant = .changing → r.latest = .release →
                t.allot h = none ∧ h ∈ t.stack ∧ h ∉ (t.sled d).handles)) ∧
            (∀ (h : Handle) (r : Allotment), s.allot h = some r →
              ¬(named h r ∧ r.sled = d ∧ r.tag = .retiring) → s.SameContract t h) ∧
            (∀ h : Handle, s.allot h = none → t.allot h = none) ∧
            (∀ y : ZoneNo, s.SameButFreed t y ∧ (s.zoneOfSled d ≠ some y → (t.zone y).x = (s.zone y).x)) ∧
            (∀ (h : Handle) (r : Allotment) (z : ZoneNo), ps = [⟨byteOf h.val, r.sequence⟩] → s.allot h = some r →
              r.sled = d → s.zoneOf r = some z →
              let v := s.zone z
              let next := r.stepUp v.ramp
              (∀ w wf f, r.tag = .live → r.grant = .changing → r.latest = .grant w wf f →
                (r.sent < r.exposure → s.Retried t z) ∧
                  (r.partner = none → r.sent < r.target →
                    ∃ u, t.allot h = some u ∧
                      if v.x + next ≤ v.budget + r.exposure then ((r.acknowledged f .held).granted next).SameButMark u
                      else (r.acknowledged f .held).SameButMark u) ∧
                  ∀ (k : Handle) (q : Allotment), r.partner = some k → s.allot k = some q →
                    if (q.grant = .settled ∨ q.grant = .held) ∧ s.reachable q.sled = true then
                      let other := q.stepUp v.ramp
                      r.sent < r.target ∨ (r.sent = r.target ∧ q.grant = .held ∧ q.sent < q.target) →
                        ∃ u o, t.allot h = some u ∧ t.allot k = some o ∧
                          if v.x + next + other ≤ v.budget + r.exposure + q.exposure then
                            (if r.sent < next then ((r.acknowledged f .held).granted next).SameButMark u
                              else (r.acknowledged f .settled).SameButMark u) ∧
                              (if q.sent < other then (q.granted other).SameButMark o
                              else Allotment.SameButMark { q with grant := .settled } o)
                          else
                            (r.acknowledged f (if r.sent < r.target then .held else .settled)).SameButMark u ∧
                              (q.sent < q.target → Allotment.SameButMark { q with grant := .held } o)
                    else
                      r.sent < r.target →
                        s.SameRecord t k ∧ ∃ u, t.allot h = some u ∧ (r.acknowledged f .held).SameButMark u) ∧
                (r.tag = .live → r.grant = .parking → r.latest = .park → r.idle < r.exposure → s.Retried t z) ∧
                (r.tag = .retiring → r.grant = .changing → r.latest = .release → 0 < r.exposure → s.Retried t z)) ∧
            t.sled d =
              { s.sled d with link := .linked, silence := 0, answered := true, handles := (t.sled d).handles } ∧
            (∀ e : SledNo, e ≠ d → t.sled e = s.sled e) ∧
            (∀ st : StationNo, (s.station st).SameButQueue (t.station st)) ∧
            t = { s with
              allotments := t.allotments, stack := t.stack, zones := t.zones, sleds := t.sleds
              stations := t.stations, service := t.service, pointer := t.pointer })

/-! ## Arithmetic -/

/-- R58: every target of Stages 2 to 5 lies from the allotment's idle to its snapshot ce and to its ceiling; the targets
sum to at most the snapshot's budget unless the zone is short with a budget at or below the idle sum, where every target
is idle; a target of the first two rows of R52 is idle, and of a FALLEN or UNLINKED record at most its floor. And what the
targets are (R51 to R57): of effective floors, wants, F and I by the rows of R52, the zone is short where F is above the
budget, and each allotment then has its share of R53; where the needs fit the surplus each has its want; where they do not,
the rounds end at the least q that is the quotient of what those it satisfies leave, by the weights of the others, each of
which has q × weight and its part of the remainder in ascending handle order; and the members of a pair have the smaller of the two. -/
def Obligations.TargetsStayWithinBounds : Prop :=
  ∀ v : Service, v.warmDerate ≤ 100 → v.hotDerate ≤ 100 →
    (∀ e ∈ v.snaps, e.idle < e.peak ∧ e.idle ≤ e.floor ∧ e.floor ≤ e.ceiling ∧ e.ceiling ≤ e.peak) →
    (∀ e ∈ v.snaps, ∀ f ∈ v.snaps, e.partner = some f.handle → f.partner = some e.handle → f.idle = e.idle) →
    let factor (x : Thermal) : Nat :=
      match x with
      | .normal => 100
      | .warm => v.warmDerate
      | .hot => v.hotDerate
      | .critical => 0
    v.targets.map (·.1) = v.snaps ∧
      (∀ p ∈ v.targets, p.1.idle ≤ p.2 ∧ p.2 ≤ p.1.ceiling ∧
        p.2 ≤ (if p.1.eff = .critical then p.1.idle else max p.1.floor (p.1.ceiling * factor p.1.eff / 100)) ∧
        (p.1.tag = .retiring ∨ p.1.grant.inPark = true ∨ p.1.eff = .critical → p.2 = p.1.idle) ∧
        (p.1.grant = .fallen ∨ p.1.grant = .unlinked → p.2 ≤ p.1.floor)) ∧
      (v.floors ≤ v.budget ∨ v.idles < v.budget → (v.targets.map (·.2)).sum ≤ v.budget) ∧
      (v.budget < v.floors → v.budget ≤ v.idles → ∀ p ∈ v.targets, p.2 = p.1.idle) ∧
      let idles (e : Snap) : Prop := e.tag = .retiring ∨ e.grant = .parkPending ∨ e.grant = .parking ∨
        e.grant = .parked ∨ e.eff = .critical
      let fe (e : Snap) : Nat := if idles e then e.idle else e.floor
      let want (e : Snap) : Nat :=
        if idles e then e.idle
        else if e.grant = .fallen ∨ e.grant = .unlinked then e.floor
        else max e.floor (min (e.demand.getD e.floor) (max e.floor (e.ceiling * factor e.eff / 100)))
      let need (e : Snap) : Nat := want e - fe e
      let f := (v.snaps.map fe).sum
      let i := (v.snaps.map (·.idle)).sum
      let surplus := v.budget - f
      v.isShort = decide (v.budget < f) ∧
        ((v.snaps.map (·.handle)).Pairwise (· < ·) → (∀ e ∈ v.snaps, 1 ≤ e.weight) →
          ∃ level : Handle → Nat,
            (∀ p ∈ v.targets,
              (∀ e ∈ v.snaps, p.1.partner = some e.handle → e.partner = some p.1.handle →
                p.2 = min (level p.1.handle) (level e.handle)) ∧
              ((∀ e ∈ v.snaps, p.1.partner = some e.handle → e.partner ≠ some p.1.handle) →
                p.2 = level p.1.handle)) ∧
            (v.budget < f → ∀ e ∈ v.snaps,
              level e.handle =
                if i < v.budget then e.idle + (fe e - e.idle) * (v.budget - i) / (f - i) else e.idle) ∧
            (f ≤ v.budget → (v.snaps.map need).sum ≤ surplus → ∀ e ∈ v.snaps, level e.handle = want e) ∧
            (f ≤ v.budget → surplus < (v.snaps.map need).sum →
              let unsatisfied (q : Nat) : List Snap := v.snaps.filter fun e => decide (q * e.weight < need e)
              let satisfied (q : Nat) : List Snap := v.snaps.filter fun e => decide (need e ≤ q * e.weight)
              let weights (q : Nat) : Nat := ((unsatisfied q).map (·.weight)).sum
              let left (q : Nat) : Nat := surplus - ((satisfied q).map need).sum
              ∃ q : Nat, ((satisfied q).map need).sum ≤ surplus ∧ 0 < weights q ∧ q = left q / weights q ∧
                (∀ k < q, k ≠ left k / weights k) ∧ (∀ e ∈ satisfied q, level e.handle = want e) ∧
                ∀ e ∈ unsatisfied q,
                  let before := (unsatisfied q).filter fun o => decide (o.handle < e.handle)
                  let given := (before.map fun o => level o.handle - (fe o + q * o.weight)).sum
                  level e.handle =
                    fe e + q * e.weight + min e.weight (min (left q - q * weights q - given) (need e - q * e.weight))))

/-- R67, R90, R91, R97: the demand of an activity is the smallest value not below idle plus its share of the span, and a
deferred demand the sent grant plus the larger of R and an eighth of the span, at most peak; a window is the value's share
of 255, truncated and at least 1, so that it runs from 1 at idle to 255 at peak and never falls with the value; and the own
thermal state after a temperature is at least a state exactly where the temperature reaches its on threshold, or where
the state stood at least there and the temperature is not below its off threshold. -/
def Obligations.DemandWindowAndThermalArithmetic : Prop :=
  (∀ idle peak a : Nat, idle < peak → a ≤ 255 →
    let demand := activityDemand idle peak a
    (idle ≤ demand ∧ demand ≤ peak) ∧ (peak - idle) * a ≤ 255 * (demand - idle) ∧
      255 * (demand - idle) < (peak - idle) * a + 255 ∧ (a = 0 → demand = idle) ∧ (a = 255 → demand = peak) ∧
      (0 < a → idle < demand)) ∧
    (∀ ramp idle peak sent : Nat, idle ≤ sent → idle < peak →
      deferredDemand ramp idle peak sent = min peak (sent + max ramp ((peak - idle) / 8)) ∧
        idle ≤ deferredDemand ramp idle peak sent ∧ deferredDemand ramp idle peak sent ≤ peak ∧
        (deferredDemand ramp idle peak sent < peak → sent + ramp ≤ deferredDemand ramp idle peak sent)) ∧
    (∀ idle peak v w : Nat, idle < peak → idle ≤ v → v ≤ w → w ≤ peak →
      (windowFor idle peak v * (peak - idle) ≤ 255 * (v - idle) ∨ windowFor idle peak v = 1) ∧
        255 * (v - idle) < (windowFor idle peak v + 1) * (peak - idle) ∧
        1 ≤ windowFor idle peak v ∧ windowFor idle peak v ≤ windowFor idle peak w ∧ windowFor idle peak w ≤ 255 ∧
        windowFor idle peak idle = 1 ∧ windowFor idle peak peak = 255) ∧
    ∀ (a : Assessor) (t : Nat) (own : Thermal), a.Legal →
      let rank := (a.evaluate t own).rank
      (1 ≤ rank ↔ a.warmOn ≤ t ∨ 1 ≤ own.rank ∧ a.warmOff ≤ t) ∧
        (2 ≤ rank ↔ a.hotOn ≤ t ∨ 2 ≤ own.rank ∧ a.hotOff ≤ t) ∧
        (3 ≤ rank ↔ a.criticalOn ≤ t ∨ 3 ≤ own.rank ∧ a.criticalOff ≤ t)
end

