-- ==== Sys2Proof/Laws/State.lean ====
section
/-! SUPPORT. The small lemmas of the named operations: what each update leaves in every field it does not write (one
lemma per field per update, true by rfl), and what each reader finds after it. -/

namespace Sys2Proof.Machine

/-! ## Fields an update leaves alone -/

/-! ### setAllot -/

@[simp] theorem State.setAllot_stack (h : Handle) (r : Option Allotment) (s : State) : (State.setAllot h r s).stack = s.stack := rfl
@[simp] theorem State.setAllot_zones (h : Handle) (r : Option Allotment) (s : State) : (State.setAllot h r s).zones = s.zones := rfl
@[simp] theorem State.setAllot_sleds (h : Handle) (r : Option Allotment) (s : State) : (State.setAllot h r s).sleds = s.sleds := rfl
@[simp] theorem State.setAllot_stations (h : Handle) (r : Option Allotment) (s : State) : (State.setAllot h r s).stations = s.stations := rfl
@[simp] theorem State.setAllot_assessor (h : Handle) (r : Option Allotment) (s : State) : (State.setAllot h r s).assessor = s.assessor := rfl
@[simp] theorem State.setAllot_warmTimers (h : Handle) (r : Option Allotment) (s : State) : (State.setAllot h r s).warmTimers = s.warmTimers := rfl
@[simp] theorem State.setAllot_service (h : Handle) (r : Option Allotment) (s : State) : (State.setAllot h r s).service = s.service := rfl
@[simp] theorem State.setAllot_table (h : Handle) (r : Option Allotment) (s : State) : (State.setAllot h r s).table = s.table := rfl
@[simp] theorem State.setAllot_pointer (h : Handle) (r : Option Allotment) (s : State) : (State.setAllot h r s).pointer = s.pointer := rfl
@[simp] theorem State.setAllot_attention (h : Handle) (r : Option Allotment) (s : State) : (State.setAllot h r s).attention = s.attention := rfl
@[simp] theorem State.setAllot_port (h : Handle) (r : Option Allotment) (s : State) : (State.setAllot h r s).port = s.port := rfl
@[simp] theorem State.setAllot_resetHeld (h : Handle) (r : Option Allotment) (s : State) : (State.setAllot h r s).resetHeld = s.resetHeld := rfl
@[simp] theorem State.setAllot_curtailPins (h : Handle) (r : Option Allotment) (s : State) : (State.setAllot h r s).curtailPins = s.curtailPins := rfl
@[simp] theorem State.setAllot_readyPin (h : Handle) (r : Option Allotment) (s : State) : (State.setAllot h r s).readyPin = s.readyPin := rfl
@[simp] theorem State.setAllot_attentionPin (h : Handle) (r : Option Allotment) (s : State) : (State.setAllot h r s).attentionPin = s.attentionPin := rfl
@[simp] theorem State.setAllot_mdo (h : Handle) (r : Option Allotment) (s : State) : (State.setAllot h r s).mdo = s.mdo := rfl
@[simp] theorem State.setAllot_pending (h : Handle) (r : Option Allotment) (s : State) : (State.setAllot h r s).pending = s.pending := rfl

/-! ### updZone -/

@[simp] theorem State.updZone_allotments (z : ZoneNo) (f : Zone → Zone) (s : State) : (State.updZone z f s).allotments = s.allotments := rfl
@[simp] theorem State.updZone_stack (z : ZoneNo) (f : Zone → Zone) (s : State) : (State.updZone z f s).stack = s.stack := rfl
@[simp] theorem State.updZone_sleds (z : ZoneNo) (f : Zone → Zone) (s : State) : (State.updZone z f s).sleds = s.sleds := rfl
@[simp] theorem State.updZone_stations (z : ZoneNo) (f : Zone → Zone) (s : State) : (State.updZone z f s).stations = s.stations := rfl
@[simp] theorem State.updZone_assessor (z : ZoneNo) (f : Zone → Zone) (s : State) : (State.updZone z f s).assessor = s.assessor := rfl
@[simp] theorem State.updZone_warmTimers (z : ZoneNo) (f : Zone → Zone) (s : State) : (State.updZone z f s).warmTimers = s.warmTimers := rfl
@[simp] theorem State.updZone_service (z : ZoneNo) (f : Zone → Zone) (s : State) : (State.updZone z f s).service = s.service := rfl
@[simp] theorem State.updZone_table (z : ZoneNo) (f : Zone → Zone) (s : State) : (State.updZone z f s).table = s.table := rfl
@[simp] theorem State.updZone_pointer (z : ZoneNo) (f : Zone → Zone) (s : State) : (State.updZone z f s).pointer = s.pointer := rfl
@[simp] theorem State.updZone_attention (z : ZoneNo) (f : Zone → Zone) (s : State) : (State.updZone z f s).attention = s.attention := rfl
@[simp] theorem State.updZone_port (z : ZoneNo) (f : Zone → Zone) (s : State) : (State.updZone z f s).port = s.port := rfl
@[simp] theorem State.updZone_resetHeld (z : ZoneNo) (f : Zone → Zone) (s : State) : (State.updZone z f s).resetHeld = s.resetHeld := rfl
@[simp] theorem State.updZone_curtailPins (z : ZoneNo) (f : Zone → Zone) (s : State) : (State.updZone z f s).curtailPins = s.curtailPins := rfl
@[simp] theorem State.updZone_readyPin (z : ZoneNo) (f : Zone → Zone) (s : State) : (State.updZone z f s).readyPin = s.readyPin := rfl
@[simp] theorem State.updZone_attentionPin (z : ZoneNo) (f : Zone → Zone) (s : State) : (State.updZone z f s).attentionPin = s.attentionPin := rfl
@[simp] theorem State.updZone_mdo (z : ZoneNo) (f : Zone → Zone) (s : State) : (State.updZone z f s).mdo = s.mdo := rfl
@[simp] theorem State.updZone_pending (z : ZoneNo) (f : Zone → Zone) (s : State) : (State.updZone z f s).pending = s.pending := rfl

/-! ### updSled -/

@[simp] theorem State.updSled_allotments (d : SledNo) (f : Sled → Sled) (s : State) : (State.updSled d f s).allotments = s.allotments := rfl
@[simp] theorem State.updSled_stack (d : SledNo) (f : Sled → Sled) (s : State) : (State.updSled d f s).stack = s.stack := rfl
@[simp] theorem State.updSled_zones (d : SledNo) (f : Sled → Sled) (s : State) : (State.updSled d f s).zones = s.zones := rfl
@[simp] theorem State.updSled_stations (d : SledNo) (f : Sled → Sled) (s : State) : (State.updSled d f s).stations = s.stations := rfl
@[simp] theorem State.updSled_assessor (d : SledNo) (f : Sled → Sled) (s : State) : (State.updSled d f s).assessor = s.assessor := rfl
@[simp] theorem State.updSled_warmTimers (d : SledNo) (f : Sled → Sled) (s : State) : (State.updSled d f s).warmTimers = s.warmTimers := rfl
@[simp] theorem State.updSled_service (d : SledNo) (f : Sled → Sled) (s : State) : (State.updSled d f s).service = s.service := rfl
@[simp] theorem State.updSled_table (d : SledNo) (f : Sled → Sled) (s : State) : (State.updSled d f s).table = s.table := rfl
@[simp] theorem State.updSled_pointer (d : SledNo) (f : Sled → Sled) (s : State) : (State.updSled d f s).pointer = s.pointer := rfl
@[simp] theorem State.updSled_attention (d : SledNo) (f : Sled → Sled) (s : State) : (State.updSled d f s).attention = s.attention := rfl
@[simp] theorem State.updSled_port (d : SledNo) (f : Sled → Sled) (s : State) : (State.updSled d f s).port = s.port := rfl
@[simp] theorem State.updSled_resetHeld (d : SledNo) (f : Sled → Sled) (s : State) : (State.updSled d f s).resetHeld = s.resetHeld := rfl
@[simp] theorem State.updSled_curtailPins (d : SledNo) (f : Sled → Sled) (s : State) : (State.updSled d f s).curtailPins = s.curtailPins := rfl
@[simp] theorem State.updSled_readyPin (d : SledNo) (f : Sled → Sled) (s : State) : (State.updSled d f s).readyPin = s.readyPin := rfl
@[simp] theorem State.updSled_attentionPin (d : SledNo) (f : Sled → Sled) (s : State) : (State.updSled d f s).attentionPin = s.attentionPin := rfl
@[simp] theorem State.updSled_mdo (d : SledNo) (f : Sled → Sled) (s : State) : (State.updSled d f s).mdo = s.mdo := rfl
@[simp] theorem State.updSled_pending (d : SledNo) (f : Sled → Sled) (s : State) : (State.updSled d f s).pending = s.pending := rfl

/-! ### updStation -/

@[simp] theorem State.updStation_allotments (st : StationNo) (f : Station → Station) (s : State) : (State.updStation st f s).allotments = s.allotments := rfl
@[simp] theorem State.updStation_stack (st : StationNo) (f : Station → Station) (s : State) : (State.updStation st f s).stack = s.stack := rfl
@[simp] theorem State.updStation_zones (st : StationNo) (f : Station → Station) (s : State) : (State.updStation st f s).zones = s.zones := rfl
@[simp] theorem State.updStation_sleds (st : StationNo) (f : Station → Station) (s : State) : (State.updStation st f s).sleds = s.sleds := rfl
@[simp] theorem State.updStation_assessor (st : StationNo) (f : Station → Station) (s : State) : (State.updStation st f s).assessor = s.assessor := rfl
@[simp] theorem State.updStation_warmTimers (st : StationNo) (f : Station → Station) (s : State) : (State.updStation st f s).warmTimers = s.warmTimers := rfl
@[simp] theorem State.updStation_service (st : StationNo) (f : Station → Station) (s : State) : (State.updStation st f s).service = s.service := rfl
@[simp] theorem State.updStation_table (st : StationNo) (f : Station → Station) (s : State) : (State.updStation st f s).table = s.table := rfl
@[simp] theorem State.updStation_pointer (st : StationNo) (f : Station → Station) (s : State) : (State.updStation st f s).pointer = s.pointer := rfl
@[simp] theorem State.updStation_attention (st : StationNo) (f : Station → Station) (s : State) : (State.updStation st f s).attention = s.attention := rfl
@[simp] theorem State.updStation_port (st : StationNo) (f : Station → Station) (s : State) : (State.updStation st f s).port = s.port := rfl
@[simp] theorem State.updStation_resetHeld (st : StationNo) (f : Station → Station) (s : State) : (State.updStation st f s).resetHeld = s.resetHeld := rfl
@[simp] theorem State.updStation_curtailPins (st : StationNo) (f : Station → Station) (s : State) : (State.updStation st f s).curtailPins = s.curtailPins := rfl
@[simp] theorem State.updStation_readyPin (st : StationNo) (f : Station → Station) (s : State) : (State.updStation st f s).readyPin = s.readyPin := rfl
@[simp] theorem State.updStation_attentionPin (st : StationNo) (f : Station → Station) (s : State) : (State.updStation st f s).attentionPin = s.attentionPin := rfl
@[simp] theorem State.updStation_mdo (st : StationNo) (f : Station → Station) (s : State) : (State.updStation st f s).mdo = s.mdo := rfl
@[simp] theorem State.updStation_pending (st : StationNo) (f : Station → Station) (s : State) : (State.updStation st f s).pending = s.pending := rfl

/-! ### updPort -/

@[simp] theorem State.updPort_allotments (f : Port → Port) (s : State) : (State.updPort f s).allotments = s.allotments := rfl
@[simp] theorem State.updPort_stack (f : Port → Port) (s : State) : (State.updPort f s).stack = s.stack := rfl
@[simp] theorem State.updPort_zones (f : Port → Port) (s : State) : (State.updPort f s).zones = s.zones := rfl
@[simp] theorem State.updPort_sleds (f : Port → Port) (s : State) : (State.updPort f s).sleds = s.sleds := rfl
@[simp] theorem State.updPort_stations (f : Port → Port) (s : State) : (State.updPort f s).stations = s.stations := rfl
@[simp] theorem State.updPort_assessor (f : Port → Port) (s : State) : (State.updPort f s).assessor = s.assessor := rfl
@[simp] theorem State.updPort_warmTimers (f : Port → Port) (s : State) : (State.updPort f s).warmTimers = s.warmTimers := rfl
@[simp] theorem State.updPort_service (f : Port → Port) (s : State) : (State.updPort f s).service = s.service := rfl
@[simp] theorem State.updPort_table (f : Port → Port) (s : State) : (State.updPort f s).table = s.table := rfl
@[simp] theorem State.updPort_pointer (f : Port → Port) (s : State) : (State.updPort f s).pointer = s.pointer := rfl
@[simp] theorem State.updPort_attention (f : Port → Port) (s : State) : (State.updPort f s).attention = s.attention := rfl
@[simp] theorem State.updPort_resetHeld (f : Port → Port) (s : State) : (State.updPort f s).resetHeld = s.resetHeld := rfl
@[simp] theorem State.updPort_curtailPins (f : Port → Port) (s : State) : (State.updPort f s).curtailPins = s.curtailPins := rfl
@[simp] theorem State.updPort_readyPin (f : Port → Port) (s : State) : (State.updPort f s).readyPin = s.readyPin := rfl
@[simp] theorem State.updPort_attentionPin (f : Port → Port) (s : State) : (State.updPort f s).attentionPin = s.attentionPin := rfl
@[simp] theorem State.updPort_mdo (f : Port → Port) (s : State) : (State.updPort f s).mdo = s.mdo := rfl
@[simp] theorem State.updPort_pending (f : Port → Port) (s : State) : (State.updPort f s).pending = s.pending := rfl

/-! ### setWarmTimer -/

@[simp] theorem State.setWarmTimer_allotments (d : SledNo) (t : Timer) (s : State) : (State.setWarmTimer d t s).allotments = s.allotments := rfl
@[simp] theorem State.setWarmTimer_stack (d : SledNo) (t : Timer) (s : State) : (State.setWarmTimer d t s).stack = s.stack := rfl
@[simp] theorem State.setWarmTimer_zones (d : SledNo) (t : Timer) (s : State) : (State.setWarmTimer d t s).zones = s.zones := rfl
@[simp] theorem State.setWarmTimer_sleds (d : SledNo) (t : Timer) (s : State) : (State.setWarmTimer d t s).sleds = s.sleds := rfl
@[simp] theorem State.setWarmTimer_stations (d : SledNo) (t : Timer) (s : State) : (State.setWarmTimer d t s).stations = s.stations := rfl
@[simp] theorem State.setWarmTimer_assessor (d : SledNo) (t : Timer) (s : State) : (State.setWarmTimer d t s).assessor = s.assessor := rfl
@[simp] theorem State.setWarmTimer_service (d : SledNo) (t : Timer) (s : State) : (State.setWarmTimer d t s).service = s.service := rfl
@[simp] theorem State.setWarmTimer_table (d : SledNo) (t : Timer) (s : State) : (State.setWarmTimer d t s).table = s.table := rfl
@[simp] theorem State.setWarmTimer_pointer (d : SledNo) (t : Timer) (s : State) : (State.setWarmTimer d t s).pointer = s.pointer := rfl
@[simp] theorem State.setWarmTimer_attention (d : SledNo) (t : Timer) (s : State) : (State.setWarmTimer d t s).attention = s.attention := rfl
@[simp] theorem State.setWarmTimer_port (d : SledNo) (t : Timer) (s : State) : (State.setWarmTimer d t s).port = s.port := rfl
@[simp] theorem State.setWarmTimer_resetHeld (d : SledNo) (t : Timer) (s : State) : (State.setWarmTimer d t s).resetHeld = s.resetHeld := rfl
@[simp] theorem State.setWarmTimer_curtailPins (d : SledNo) (t : Timer) (s : State) : (State.setWarmTimer d t s).curtailPins = s.curtailPins := rfl
@[simp] theorem State.setWarmTimer_readyPin (d : SledNo) (t : Timer) (s : State) : (State.setWarmTimer d t s).readyPin = s.readyPin := rfl
@[simp] theorem State.setWarmTimer_attentionPin (d : SledNo) (t : Timer) (s : State) : (State.setWarmTimer d t s).attentionPin = s.attentionPin := rfl
@[simp] theorem State.setWarmTimer_mdo (d : SledNo) (t : Timer) (s : State) : (State.setWarmTimer d t s).mdo = s.mdo := rfl
@[simp] theorem State.setWarmTimer_pending (d : SledNo) (t : Timer) (s : State) : (State.setWarmTimer d t s).pending = s.pending := rfl

/-! ### updAttention -/

@[simp] theorem State.updAttention_allotments (f : AttentionUnit → AttentionUnit) (s : State) : (State.updAttention f s).allotments = s.allotments := rfl
@[simp] theorem State.updAttention_stack (f : AttentionUnit → AttentionUnit) (s : State) : (State.updAttention f s).stack = s.stack := rfl
@[simp] theorem State.updAttention_zones (f : AttentionUnit → AttentionUnit) (s : State) : (State.updAttention f s).zones = s.zones := rfl
@[simp] theorem State.updAttention_sleds (f : AttentionUnit → AttentionUnit) (s : State) : (State.updAttention f s).sleds = s.sleds := rfl
@[simp] theorem State.updAttention_stations (f : AttentionUnit → AttentionUnit) (s : State) : (State.updAttention f s).stations = s.stations := rfl
@[simp] theorem State.updAttention_assessor (f : AttentionUnit → AttentionUnit) (s : State) : (State.updAttention f s).assessor = s.assessor := rfl
@[simp] theorem State.updAttention_warmTimers (f : AttentionUnit → AttentionUnit) (s : State) : (State.updAttention f s).warmTimers = s.warmTimers := rfl
@[simp] theorem State.updAttention_service (f : AttentionUnit → AttentionUnit) (s : State) : (State.updAttention f s).service = s.service := rfl
@[simp] theorem State.updAttention_table (f : AttentionUnit → AttentionUnit) (s : State) : (State.updAttention f s).table = s.table := rfl
@[simp] theorem State.updAttention_pointer (f : AttentionUnit → AttentionUnit) (s : State) : (State.updAttention f s).pointer = s.pointer := rfl
@[simp] theorem State.updAttention_port (f : AttentionUnit → AttentionUnit) (s : State) : (State.updAttention f s).port = s.port := rfl
@[simp] theorem State.updAttention_resetHeld (f : AttentionUnit → AttentionUnit) (s : State) : (State.updAttention f s).resetHeld = s.resetHeld := rfl
@[simp] theorem State.updAttention_curtailPins (f : AttentionUnit → AttentionUnit) (s : State) : (State.updAttention f s).curtailPins = s.curtailPins := rfl
@[simp] theorem State.updAttention_readyPin (f : AttentionUnit → AttentionUnit) (s : State) : (State.updAttention f s).readyPin = s.readyPin := rfl
@[simp] theorem State.updAttention_mdo (f : AttentionUnit → AttentionUnit) (s : State) : (State.updAttention f s).mdo = s.mdo := rfl
@[simp] theorem State.updAttention_pending (f : AttentionUnit → AttentionUnit) (s : State) : (State.updAttention f s).pending = s.pending := rfl

/-! ## Fields an update writes -/

@[simp] theorem State.updPort_port (f : Port → Port) (s : State) : (s.updPort f).port = f s.port := rfl
@[simp] theorem State.updAttention_attention (f : AttentionUnit → AttentionUnit) (s : State) :
    (s.updAttention f).attention = f s.attention := rfl
@[simp] theorem State.updAttention_attentionPin (f : AttentionUnit → AttentionUnit) (s : State) :
    (s.updAttention f).attentionPin = (!s.resetHeld && (f s.attention).anyUnmasked) := rfl

/-! ## Readers after an update of another field -/

@[simp] theorem State.setAllot_zone (h : Handle) (r : Option Allotment) (z' : ZoneNo) (s : State) :
    (State.setAllot h r s).zone z' = s.zone z' := rfl
@[simp] theorem State.setAllot_sled (h : Handle) (r : Option Allotment) (d' : SledNo) (s : State) :
    (State.setAllot h r s).sled d' = s.sled d' := rfl
@[simp] theorem State.setAllot_station (h : Handle) (r : Option Allotment) (st' : StationNo) (s : State) :
    (State.setAllot h r s).station st' = s.station st' := rfl
@[simp] theorem State.updZone_allot (z : ZoneNo) (f : Zone → Zone) (h' : Handle) (s : State) :
    (State.updZone z f s).allot h' = s.allot h' := rfl
@[simp] theorem State.updZone_sled (z : ZoneNo) (f : Zone → Zone) (d' : SledNo) (s : State) :
    (State.updZone z f s).sled d' = s.sled d' := rfl
@[simp] theorem State.updZone_station (z : ZoneNo) (f : Zone → Zone) (st' : StationNo) (s : State) :
    (State.updZone z f s).station st' = s.station st' := rfl
@[simp] theorem State.updSled_allot (d : SledNo) (f : Sled → Sled) (h' : Handle) (s : State) :
    (State.updSled d f s).allot h' = s.allot h' := rfl
@[simp] theorem State.updSled_zone (d : SledNo) (f : Sled → Sled) (z' : ZoneNo) (s : State) :
    (State.updSled d f s).zone z' = s.zone z' := rfl
@[simp] theorem State.updSled_station (d : SledNo) (f : Sled → Sled) (st' : StationNo) (s : State) :
    (State.updSled d f s).station st' = s.station st' := rfl
@[simp] theorem State.updStation_allot (st : StationNo) (f : Station → Station) (h' : Handle) (s : State) :
    (State.updStation st f s).allot h' = s.allot h' := rfl
@[simp] theorem State.updStation_zone (st : StationNo) (f : Station → Station) (z' : ZoneNo) (s : State) :
    (State.updStation st f s).zone z' = s.zone z' := rfl
@[simp] theorem State.updStation_sled (st : StationNo) (f : Station → Station) (d' : SledNo) (s : State) :
    (State.updStation st f s).sled d' = s.sled d' := rfl
@[simp] theorem State.updPort_allot (f : Port → Port) (h' : Handle) (s : State) :
    (State.updPort f s).allot h' = s.allot h' := rfl
@[simp] theorem State.updPort_zone (f : Port → Port) (z' : ZoneNo) (s : State) :
    (State.updPort f s).zone z' = s.zone z' := rfl
@[simp] theorem State.updPort_sled (f : Port → Port) (d' : SledNo) (s : State) :
    (State.updPort f s).sled d' = s.sled d' := rfl
@[simp] theorem State.updPort_station (f : Port → Port) (st' : StationNo) (s : State) :
    (State.updPort f s).station st' = s.station st' := rfl
@[simp] theorem State.setWarmTimer_allot (d : SledNo) (t : Timer) (h' : Handle) (s : State) :
    (State.setWarmTimer d t s).allot h' = s.allot h' := rfl
@[simp] theorem State.setWarmTimer_zone (d : SledNo) (t : Timer) (z' : ZoneNo) (s : State) :
    (State.setWarmTimer d t s).zone z' = s.zone z' := rfl
@[simp] theorem State.setWarmTimer_sled (d : SledNo) (t : Timer) (d' : SledNo) (s : State) :
    (State.setWarmTimer d t s).sled d' = s.sled d' := rfl
@[simp] theorem State.setWarmTimer_station (d : SledNo) (t : Timer) (st' : StationNo) (s : State) :
    (State.setWarmTimer d t s).station st' = s.station st' := rfl
@[simp] theorem State.updAttention_allot (f : AttentionUnit → AttentionUnit) (h' : Handle) (s : State) :
    (State.updAttention f s).allot h' = s.allot h' := rfl
@[simp] theorem State.updAttention_zone (f : AttentionUnit → AttentionUnit) (z' : ZoneNo) (s : State) :
    (State.updAttention f s).zone z' = s.zone z' := rfl
@[simp] theorem State.updAttention_sled (f : AttentionUnit → AttentionUnit) (d' : SledNo) (s : State) :
    (State.updAttention f s).sled d' = s.sled d' := rfl
@[simp] theorem State.updAttention_station (f : AttentionUnit → AttentionUnit) (st' : StationNo) (s : State) :
    (State.updAttention f s).station st' = s.station st' := rfl

/-! ## Readers after an update of their own field -/

@[simp] theorem State.setAllot_allot_self (h : Handle) (r : Option Allotment) (s : State) :
    (s.setAllot h r).allot h = r := by
  simp [State.setAllot, State.allot]

theorem State.setAllot_allot_ne {h k : Handle} (hk : k ≠ h) (r : Option Allotment) (s : State) :
    (s.setAllot h r).allot k = s.allot k := by
  have : h.val ≠ k.val := fun e => hk (Fin.ext e.symm)
  simp [State.setAllot, State.allot, this]

theorem State.setAllot_allot (h k : Handle) (r : Option Allotment) (s : State) :
    (s.setAllot h r).allot k = if k = h then r else s.allot k := by
  by_cases e : k = h
  · subst e; simp
  · simp [e, State.setAllot_allot_ne e]

@[simp] theorem State.updZone_zone_self (z : ZoneNo) (f : Zone → Zone) (s : State) :
    (s.updZone z f).zone z = f (s.zone z) := by
  simp [State.updZone, State.zone]

theorem State.updZone_zone_ne {z y : ZoneNo} (hy : y ≠ z) (f : Zone → Zone) (s : State) :
    (s.updZone z f).zone y = s.zone y := by
  have : z.val ≠ y.val := fun e => hy (Fin.ext e.symm)
  simp [State.updZone, State.zone, this]

theorem State.updZone_zone (z y : ZoneNo) (f : Zone → Zone) (s : State) :
    (s.updZone z f).zone y = if y = z then f (s.zone y) else s.zone y := by
  by_cases e : y = z
  · subst e; simp
  · simp [e, State.updZone_zone_ne e]

@[simp] theorem State.updSled_sled_self (d : SledNo) (f : Sled → Sled) (s : State) :
    (s.updSled d f).sled d = f (s.sled d) := by
  simp [State.updSled, State.sled]

theorem State.updSled_sled_ne {d e : SledNo} (he : e ≠ d) (f : Sled → Sled) (s : State) :
    (s.updSled d f).sled e = s.sled e := by
  have : d.val ≠ e.val := fun k => he (Fin.ext k.symm)
  simp [State.updSled, State.sled, this]

theorem State.updSled_sled (d e : SledNo) (f : Sled → Sled) (s : State) :
    (s.updSled d f).sled e = if e = d then f (s.sled e) else s.sled e := by
  by_cases k : e = d
  · subst k; simp
  · simp [k, State.updSled_sled_ne k]

@[simp] theorem State.updStation_station_self (st : StationNo) (f : Station → Station) (s : State) :
    (s.updStation st f).station st = f (s.station st) := by
  simp [State.updStation, State.station]

theorem State.updStation_station_ne {st st' : StationNo} (h : st' ≠ st) (f : Station → Station) (s : State) :
    (s.updStation st f).station st' = s.station st' := by
  have : st.val ≠ st'.val := fun k => h (Fin.ext k.symm)
  simp [State.updStation, State.station, this]

theorem State.updStation_station (st st' : StationNo) (f : Station → Station) (s : State) :
    (s.updStation st f).station st' = if st' = st then f (s.station st') else s.station st' := by
  by_cases k : st' = st
  · subst k; simp
  · simp [k, State.updStation_station_ne k]

@[simp] theorem tabulate_get {α : Type} {n : Nat} (f : Fin n → α) (i : Fin n) : (tabulate f)[i] = f i := by
  simp [tabulate]

/-- Two states are equal when their fields are. -/
theorem State.ext_fields {s t : State} (h1 : s.allotments = t.allotments) (h2 : s.stack = t.stack)
    (h3 : s.zones = t.zones) (h4 : s.sleds = t.sleds) (h5 : s.stations = t.stations)
    (h6 : s.assessor = t.assessor) (h7 : s.warmTimers = t.warmTimers) (h8 : s.service = t.service)
    (h9 : s.table = t.table) (h10 : s.pointer = t.pointer) (h11 : s.attention = t.attention)
    (h12 : s.port = t.port) (h13 : s.resetHeld = t.resetHeld) (h14 : s.curtailPins = t.curtailPins)
    (h15 : s.readyPin = t.readyPin) (h16 : s.attentionPin = t.attentionPin) (h17 : s.mdo = t.mdo)
    (h18 : s.pending = t.pending) : s = t := by
  cases s; cases t; simp_all

end Sys2Proof.Machine
end

