-- ==== Sys2Proof/Laws/Grants.lean ====
section
/-! SUPPORT. What the grant dispatcher can do, said once: every operation of chapter 4 is a run of moves, each the
write of a living record whose contract stands, the placing of an entry, or a recompute request. What a run of moves
keeps is proved here once, and an event that calls the dispatcher has it from the one lemma of the operation it
calls. -/

namespace Sys2Proof.Machine

/-! ## Writes of a record that place no entry -/

/-- A write that places no entry: the contract, the pairing, the sequence, the latest entry and the snapshot mark
stand, and no value goes uncounted (R5, R66, R70). -/
structure Allotment.Written (r q : Allotment) : Prop where
  contract : r.SameContractFields q
  sequence : q.sequence = r.sequence
  latest : q.latest = r.latest
  mark : q.mark = r.mark
  flight : r.sent ≤ r.highest → q.sent ≤ q.highest
  unacked : q.unacked ≤ r.unacked

/-- A write of the dispatcher's own: besides, the target, the demands and the wake flag stand. -/
structure Allotment.GrantWrite (r q : Allotment) : Prop extends r.Written q where
  target : q.target = r.target
  demand : q.demand = r.demand
  demandUsed : q.demandUsed = r.demandUsed

theorem Allotment.SameContractFields.refl (r : Allotment) : r.SameContractFields r := by
  simp [Allotment.SameContractFields]

theorem Allotment.SameContractFields.trans {a b c : Allotment} (h : a.SameContractFields b)
    (k : b.SameContractFields c) : a.SameContractFields c := by
  simp_all [Allotment.SameContractFields]

theorem Allotment.GrantWrite.toGrant (r : Allotment) (g : GrantState) : r.GrantWrite { r with grant := g } :=
  ⟨⟨.refl r, rfl, rfl, rfl, id, le_refl _⟩, rfl, rfl, rfl⟩

/-! ## Runs of moves -/

/-- A run of moves from a state: writes of living records that satisfy `W`, entries placed, and, where `req` holds,
recompute requests set. -/
inductive State.Moves (W : Allotment → Allotment → Prop) (req : Prop) (s : State) : State → Prop where
  | refl : State.Moves W req s s
  | put {t : State} {h : Handle} {r q : Allotment} :
      State.Moves W req s t → t.allot h = some r → W r q → State.Moves W req s (t.putAllot h q)
  | place {t : State} (h : Handle) (p : Placing) (g : GrantState) :
      State.Moves W req s t → State.Moves W req s (t.place h p g)
  | normal {t : State} (z : ZoneNo) : req → State.Moves W req s t → State.Moves W req s (t.requestNormal z)
  | urgent {t : State} (z : ZoneNo) : req → State.Moves W req s t → State.Moves W req s (t.requestUrgent z)

/-- What an invocation of the dispatcher may do (R69): grants move, and no request is set. -/
abbrev State.Dispatches (s t : State) : Prop := State.Moves Allotment.GrantWrite False s t

/-- What an event may do to records and requests without touching a contract. -/
abbrev State.Acts (s t : State) : Prop := State.Moves Allotment.Written True s t

theorem State.Moves.trans {W : Allotment → Allotment → Prop} {req : Prop} {s t u : State}
    (h : State.Moves W req s t) (k : State.Moves W req t u) : State.Moves W req s u := by
  induction k with
  | refl => exact h
  | put _ ha hw ih => exact .put ih ha hw
  | place a p g _ ih => exact .place a p g ih
  | normal z hr _ ih => exact .normal z hr ih
  | urgent z hr _ ih => exact .urgent z hr ih

theorem State.Moves.mono {W V : Allotment → Allotment → Prop} {req req' : Prop} (hW : ∀ r q, W r q → V r q)
    (hr : req → req') {s t : State} (h : State.Moves W req s t) : State.Moves V req' s t := by
  induction h with
  | refl => exact .refl
  | put _ ha hw ih => exact .put ih ha (hW _ _ hw)
  | place a p g _ ih => exact .place a p g ih
  | normal z k _ ih => exact .normal z (hr k) ih
  | urgent z k _ ih => exact .urgent z (hr k) ih

theorem State.Dispatches.acts {s t : State} (h : s.Dispatches t) : s.Acts t :=
  h.mono (fun _ _ w => w.toWritten) False.elim

/-- A run over a list, each step a run, is a run. -/
theorem State.Moves.foldl {W : Allotment → Allotment → Prop} {req : Prop} {α : Type} (f : State → α → State)
    (hf : ∀ s a, State.Moves W req s (f s a)) (l : List α) (s : State) : State.Moves W req s (l.foldl f s) := by
  induction l generalizing s with
  | nil => exact .refl
  | cons a l ih => exact (hf s a).trans (ih _)

/-! ## The words of the statements and the operations they speak of -/

/-- Placing a GRANT leaves the record as the statements say a granted record stands (R66, R67). -/
theorem Allotment.advance_eq_granted (r : Allotment) (v : Nat) : r.advance (.grant v) .changing = r.granted v := rfl

/-- The next value of a joint raise is the statements' step (R71, R73). -/
theorem Allotment.pairNext_eq_stepUp (r : Allotment) (ramp : Nat) : r.pairNext ramp = r.stepUp ramp := rfl

/-- The next value of a record below its target is the statements' step (R71). -/
theorem Allotment.next_eq_stepUp (r : Allotment) (ramp : Nat) (h : r.sent < r.target) :
    r.next ramp = r.stepUp ramp := (if_pos h).symm

/-- Settling a record and then writing its grant state leaves it acknowledged in that state (R77). -/
theorem Allotment.settle_eq_acknowledged (r : Allotment) (g : GrantState) :
    { r.settle with grant := g } = r.acknowledged (r.latest.floorKept r.fallbackFloor) g := rfl

/-! ## Each operation is a run -/

theorem State.modAllot_moves {W : Allotment → Allotment → Prop} {req : Prop} (h : Handle)
    (f : Allotment → Allotment) (hf : ∀ r, W r (f r)) (s : State) : State.Moves W req s (s.modAllot h f) := by
  unfold State.modAllot
  split
  · exact .refl
  · rename_i r hr; exact .put .refl hr (hf r)

theorem State.setGrant_dispatches (h : Handle) (g : GrantState) (s : State) : s.Dispatches (s.setGrant h g) :=
  State.modAllot_moves h _ (fun r => .toGrant r g) s

theorem State.setTarget_acts (h : Handle) (t : Nat) (s : State) : s.Acts (s.setTarget h t) :=
  State.modAllot_moves h _ (fun r => ⟨.refl r, rfl, rfl, rfl, id, le_refl _⟩) s

theorem State.requestNormalFor_acts (d : SledNo) (s : State) : s.Acts (s.requestNormalFor d) := by
  unfold State.requestNormalFor
  split
  · exact .refl
  · exact .normal _ trivial .refl

theorem State.raiseSingle_dispatches (h : Handle) (r : Allotment) (z : ZoneNo) (s : State) :
    s.Dispatches (s.raiseSingle h r z) := by
  unfold State.raiseSingle
  dsimp only
  split
  · exact .place _ _ _ .refl
  · exact s.setGrant_dispatches _ _

theorem State.raiseMember_dispatches (h : Handle) (r : Allotment) (n : Nat) (s : State) :
    s.Dispatches (s.raiseMember h r n) := by
  unfold State.raiseMember
  split
  · exact .place _ _ _ .refl
  · exact s.setGrant_dispatches _ _

theorem State.holdMember_dispatches (h : Handle) (r : Allotment) (s : State) :
    s.Dispatches (s.holdMember h r) := by
  unfold State.holdMember
  split
  · exact s.setGrant_dispatches _ _
  · exact .refl

theorem State.raisePair_dispatches (h : Handle) (r : Allotment) (p : Handle) (z : ZoneNo) (s : State) :
    s.Dispatches (s.raisePair h r p z) := by
  unfold State.raisePair
  dsimp only
  repeat' split
  · exact s.setGrant_dispatches _ _
  · exact s.setGrant_dispatches _ _
  · exact (s.raiseMember_dispatches _ _ _).trans (State.raiseMember_dispatches _ _ _ _)
  · exact (s.raiseMember_dispatches _ _ _).trans (State.raiseMember_dispatches _ _ _ _)
  · exact (s.holdMember_dispatches _ _).trans (State.holdMember_dispatches _ _ _)

theorem State.testRaise_dispatches (h : Handle) (r : Allotment) (s : State) :
    s.Dispatches (s.testRaise h r) := by
  unfold State.testRaise
  repeat' split
  · exact .refl
  · exact s.raiseSingle_dispatches _ _ _
  · exact s.raisePair_dispatches _ _ _ _

/-- An invocation of the dispatcher (R69). -/
theorem State.invoke_dispatches (h : Handle) (s : State) : s.Dispatches (s.invoke h) := by
  unfold State.invoke
  repeat' split
  all_goals first
    | exact .refl
    | exact .place _ _ _ .refl
    | exact s.setGrant_dispatches _ _
    | exact s.testRaise_dispatches _ _

theorem State.invokeNewFloor_dispatches (h : Handle) (s : State) : s.Dispatches (s.invokeNewFloor h) := by
  unfold State.invokeNewFloor
  repeat' split
  all_goals first
    | exact .refl
    | exact .place _ _ _ .refl
    | exact s.invoke_dispatches _

theorem State.invokeAll_dispatches (l : List Handle) (s : State) : s.Dispatches (s.invokeAll l) :=
  .foldl _ (fun s h => s.invoke_dispatches h) l s

theorem State.invokeHeld_dispatches (h : Handle) (s : State) : s.Dispatches (s.invokeHeld h) := by
  unfold State.invokeHeld
  repeat' split
  all_goals first
    | exact .refl
    | exact s.invoke_dispatches _

theorem State.retryVisit_dispatches (h : Handle) (s : State) : s.Dispatches (s.retryVisit h) := by
  unfold State.retryVisit
  repeat' split
  all_goals first
    | exact .refl
    | exact s.invokeHeld_dispatches _
    | exact (s.invokeHeld_dispatches _).trans (State.invokeHeld_dispatches _ _)

/-- The headroom retry of a zone (R74). -/
theorem State.retry_dispatches (z : ZoneNo) (s : State) : s.Dispatches (s.retry z) :=
  .foldl _ (fun s h => s.retryVisit_dispatches h) _ s

theorem State.retryIf_dispatches (b : Bool) (zo : Option ZoneNo) (s : State) : s.Dispatches (s.retryIf b zo) := by
  unfold State.retryIf
  repeat' split
  all_goals first
    | exact .refl
    | exact s.retry_dispatches _

/-- A direct action (R79). -/
theorem State.directAction_acts (h : Handle) (t : Nat) (s : State) : s.Acts (s.directAction h t) := by
  unfold State.directAction
  split
  · exact .refl
  · exact ((s.setTarget_acts _ _).trans (State.invoke_dispatches _ _).acts).trans
      (State.requestNormalFor_acts _ _)

theorem State.criticalAction_acts (d : SledNo) (s : State) : s.Acts (s.criticalAction d) := by
  refine .foldl _ (fun s h => ?_) _ s
  split
  · exact .refl
  · exact s.directAction_acts _ _

theorem State.unparkParked_acts (h : Handle) (s : State) : s.Acts (s.unparkParked h) := by
  unfold State.unparkParked
  split
  · exact .refl
  · rename_i r hr
    exact (State.Moves.put .refl hr ⟨.refl r, rfl, rfl, rfl, fun _ => le_refl _, le_refl _⟩).trans
      (State.requestNormalFor_acts _ _)

theorem State.afterGrantAck_dispatches (h : Handle) (r : Allotment) (s : State) :
    s.Dispatches (s.afterGrantAck h r) := by
  unfold State.afterGrantAck
  repeat' split
  all_goals first
    | exact .place _ _ _ .refl
    | exact s.setGrant_dispatches _ _

theorem State.invokeAcked_dispatches (h : Handle) (p : Option Handle) (s : State) :
    s.Dispatches (s.invokeAcked h p) := by
  unfold State.invokeAcked
  split
  · exact s.invoke_dispatches _
  · exact (s.invoke_dispatches _).trans (State.invokeHeld_dispatches _ _)

/-- The acknowledgement of a GRANT (R77), of the record as it stands. -/
theorem State.ackGrant_dispatches (h : Handle) (r : Allotment) (s : State) (hr : s.allot h = some r) :
    s.Dispatches (s.ackGrant h r) :=
  (((State.Moves.put .refl hr ⟨⟨.refl r, rfl, rfl, rfl, fun _ => le_refl _, Nat.zero_le _⟩, rfl, rfl, rfl⟩).trans
    (State.afterGrantAck_dispatches _ _ _)).trans (State.invokeAcked_dispatches _ _ _)).trans
    (State.retryIf_dispatches _ _ _)

/-- The acknowledgement of a PARK (R78, R158), of the record as it stands. -/
theorem State.ackPark_acts (h : Handle) (r : Allotment) (s : State) (hr : s.allot h = some r) :
    s.Acts (s.ackPark h r) := by
  unfold State.ackPark
  refine State.Moves.trans ?_ (State.retryIf_dispatches _ _ _).acts
  have h1 : s.Acts (s.putAllot h r.parkDone) := .put .refl hr ⟨.refl r, rfl, rfl, rfl, id, Nat.zero_le _⟩
  split
  · exact (h1.trans (State.unparkParked_acts _ _)).trans (State.invoke_dispatches _ _).acts
  · exact h1

theorem State.unparkRecord_acts (h : Handle) (s : State) : s.Acts (s.unparkRecord h).1 := by
  unfold State.unparkRecord
  split
  · exact .refl
  · rename_i r hr
    split
    · exact s.unparkParked_acts h
    · split
      · exact .refl
      · exact .put .refl hr ⟨.refl r, rfl, rfl, rfl, id, le_refl _⟩
    · exact (s.setGrant_dispatches _ _).acts
    all_goals exact .refl

theorem State.unparkFold_acts (l : List Handle) (acc : State × List Handle) :
    acc.1.Acts (l.foldl State.unparkStep acc).1 := by
  induction l generalizing acc with
  | nil => exact .refl
  | cons h l ih => exact (acc.1.unparkRecord_acts h).trans (ih (State.unparkStep acc h))

/-- An unpark request on a list of records (R156). -/
theorem State.unparkAll_acts (l : List Handle) (s : State) : s.Acts (s.unparkAll l).1 :=
  (State.unparkFold_acts l (s, [])).trans (State.invokeAll_dispatches _ _).acts

theorem State.wakeOnDemand_acts (h : Handle) (b : Bool) (s : State) : s.Acts (s.wakeOnDemand h b) := by
  unfold State.wakeOnDemand
  split
  · exact .refl
  · split
    · exact s.unparkAll_acts _
    · exact .refl

theorem State.parkRecord_acts (h : Handle) (s : State) : s.Dispatches (s.parkRecord h) := by
  unfold State.parkRecord
  repeat' split
  all_goals first
    | exact .refl
    | exact .place _ _ _ .refl
    | exact s.setGrant_dispatches _ _

/-- The parks of a list of records, with their invocations (R150, R151). -/
theorem State.parkFold_dispatches (l : List Handle) (acc : State × Bool) :
    acc.1.Dispatches (l.foldl State.parkStep acc).1 := by
  induction l generalizing acc with
  | nil => exact .refl
  | cons h l ih =>
    exact ((acc.1.parkRecord_acts h).trans (State.invoke_dispatches _ _)).trans (ih (State.parkStep acc h))

theorem State.assessDemand_acts (h : Handle) (ts : List Triple) (s : State) : s.Acts (s.assessDemand h ts) := by
  unfold State.assessDemand
  split
  · exact .refl
  · rename_i r hr
    split
    · exact .refl
    · have h1 (d : Nat) : s.Acts (s.putAllot h { r with demand := some d }) :=
        .put .refl hr ⟨.refl r, rfl, rfl, rfl, id, le_refl _⟩
      dsimp only
      split
      · exact .normal _ trivial (h1 _)
      · exact h1 _

/-- The demands of a report's records, with their deadband and wake-on-demand tests (R88 step 2). -/
theorem State.assessRecord_acts (ts : List Triple) (s : State) (h : Handle) :
    s.Acts (s.assessRecord ts h) := by
  unfold State.assessRecord
  split
  · exact .refl
  · exact (s.assessDemand_acts _ _).trans (State.wakeOnDemand_acts _ _ _)

theorem State.welcomeEntry_acts (s : State) (h : Handle) : s.Acts (s.welcomeEntry h) := by
  unfold State.welcomeEntry
  split
  · exact .refl
  · rename_i r hr
    have h1 : s.Acts (s.putAllot h (r.level r.idle)) :=
      .put .refl hr ⟨.refl r, rfl, rfl, rfl, fun _ => le_refl _, le_refl _⟩
    have h2 : s.Acts (s.putAllot h { r with highest := max r.highest r.exposure }) :=
      .put .refl hr ⟨.refl r, rfl, rfl, rfl, fun k => le_trans k (le_max_left _ _), le_refl _⟩
    repeat' split
    all_goals first
      | exact .place _ _ _ .refl
      | exact .place _ _ _ h1
      | exact .place _ _ _ h2

theorem State.lowerTarget_acts (h : Handle) (old : Allotment) (s : State) : s.Acts (s.lowerTarget h old) := by
  unfold State.lowerTarget
  repeat' split
  all_goals first
    | exact .refl
    | exact (s.setTarget_acts _ _).trans (State.requestNormalFor_acts _ _)

theorem State.invokeAmended_acts (h : Handle) (old : Allotment) (s : State) : s.Acts (s.invokeAmended h old) := by
  unfold State.invokeAmended
  repeat' split
  · exact .refl
  · exact (s.invoke_dispatches _).acts
  · exact (s.invokeNewFloor_dispatches _).acts

/-- What follows for the records that an amendment wrote (R13, R14, R75). -/
theorem State.afterAmend_acts (before : State) (l : List Handle) (s : State) : s.Acts (before.afterAmend l s) := by
  unfold State.afterAmend
  refine (State.Moves.foldl _ (fun s h => ?_) l s).trans (.foldl _ (fun s h => ?_) l _)
  all_goals dsimp only; split
  · exact .refl
  · exact s.lowerTarget_acts _ _
  · exact .refl
  · exact s.invokeAmended_acts _ _

theorem State.applyTarget_acts (p : Snap × Nat) (s : State) : s.Acts (s.applyTarget p) := by
  unfold State.applyTarget
  split
  · exact .refl
  · exact State.modAllot_moves _ _ (fun r => ⟨.refl r, rfl, rfl, rfl, id, le_refl _⟩) s

end Sys2Proof.Machine
end

