-- ==== Sys2Proof/Laws/Kept.lean ====
section
/-! SUPPORT. What a run of moves keeps: everything but records, zones and queues, the contract of every record, every
field of a zone but X and the requests, every field of a station but its queue. -/

namespace Sys2Proof.Machine

/-! ## The primitive operations -/

theorem State.reportExposure_cases (zo : Option ZoneNo) (a b : Nat) (s : State) :
    s.reportExposure zo a b = match zo with
      | none => s
      | some z => s.updZone z fun r => { r with x := r.x + b - a } := rfl

@[simp] theorem State.reportExposure_allot (zo : Option ZoneNo) (a b : Nat) (s : State) (h : Handle) :
    (s.reportExposure zo a b).allot h = s.allot h := by
  cases zo <;> rfl

theorem State.putAllot_allot (h k : Handle) (r : Allotment) (s : State) :
    (s.putAllot h r).allot k = if k = h then some r else s.allot k := by
  simp [State.putAllot, State.setAllot_allot]

@[simp] theorem State.putAllot_allot_self (h : Handle) (r : Allotment) (s : State) :
    (s.putAllot h r).allot h = some r := by
  simp [State.putAllot]

/-- A write of a record moves X of its zone by the change of its exposure, and no other field of any zone (R31). -/
theorem State.putAllot_zone (h : Handle) (r : Allotment) (s : State) (z : ZoneNo) :
    (s.putAllot h r).zone z =
      if s.zoneOf r = some z then { s.zone z with x := (s.zone z).x + r.exposure - exposureOf (s.allot h) }
      else s.zone z := by
  unfold State.putAllot State.reportExposure
  cases hz : s.zoneOf r with
  | none => simp
  | some y =>
    by_cases e : z = y
    · subst e; simp
    · simp [State.updZone_zone_ne e, Ne.symm e]

@[simp] theorem State.putAllot_station (h : Handle) (r : Allotment) (s : State) (st : StationNo) :
    (s.putAllot h r).station st = s.station st := by
  unfold State.putAllot State.reportExposure
  cases s.zoneOf r <;> rfl

theorem State.GrantsOnly.refl (s : State) : s.GrantsOnly s := rfl

theorem State.GrantsOnly.trans {s t u : State} (h : s.GrantsOnly t) (k : t.GrantsOnly u) : s.GrantsOnly u := by
  unfold State.GrantsOnly at *
  rw [h] at k
  exact k

theorem State.setAllot_grantsOnly (h : Handle) (r : Option Allotment) (s : State) :
    s.GrantsOnly (s.setAllot h r) := rfl

theorem State.updZone_grantsOnly (z : ZoneNo) (f : Zone → Zone) (s : State) : s.GrantsOnly (s.updZone z f) := rfl

theorem State.updStation_grantsOnly (st : StationNo) (f : Station → Station) (s : State) :
    s.GrantsOnly (s.updStation st f) := rfl

theorem State.putAllot_grantsOnly (h : Handle) (r : Allotment) (s : State) : s.GrantsOnly (s.putAllot h r) := by
  unfold State.putAllot State.reportExposure
  split <;> rfl

theorem State.handEntry_grantsOnly (d : SledNo) (e : Option Entry) (s : State) : s.GrantsOnly (s.handEntry d e) := by
  unfold State.handEntry
  split <;> rfl

@[simp] theorem State.handEntry_allot (d : SledNo) (e : Option Entry) (s : State) (h : Handle) :
    (s.handEntry d e).allot h = s.allot h := by
  cases e <;> rfl

@[simp] theorem State.handEntry_zone (d : SledNo) (e : Option Entry) (s : State) (z : ZoneNo) :
    (s.handEntry d e).zone z = s.zone z := by
  cases e <;> rfl

/-- Everything a placing can do (R66): nothing, or the record written and its entry handed to the queue. -/
theorem State.place_cases (h : Handle) (p : Placing) (g : GrantState) (s : State) :
    s.place h p g = s ∨
      ∃ r, s.allot h = some r ∧ s.mayPlace r = true ∧
        s.place h p g = (s.putAllot h (r.advance p g)).handEntry r.sled ((r.advance p g).latestEntry h) := by
  unfold State.place
  cases hr : s.allot h with
  | none => exact .inl rfl
  | some r =>
    by_cases hm : s.mayPlace r
    · exact .inr ⟨r, rfl, hm, by simp [hm]⟩
    · exact .inl (by simp [hm])

/-- What a placing leaves of a record: contract, demands, target and mark, no value uncounted, the placements within
their bound (R66, R70). -/
theorem Allotment.advance_keeps (p : Placing) (g : GrantState) (r : Allotment) :
    r.SameContractFields (r.advance p g) ∧ (r.advance p g).mark = r.mark ∧
      (r.advance p g).target = r.target ∧ (r.advance p g).demand = r.demand ∧
      (r.advance p g).demandUsed = r.demandUsed ∧ (r.sent ≤ r.highest → (r.advance p g).sent ≤ (r.advance p g).highest) ∧
      (r.advance p g).unacked = r.unacked + 1 := by
  cases p <;> simp [Allotment.advance, Allotment.SameContractFields]

/-! ## Runs of moves -/

variable {W : Allotment → Allotment → Prop} {req : Prop} {s t : State}

theorem State.place_grantsOnly (h : Handle) (p : Placing) (g : GrantState) (s : State) :
    s.GrantsOnly (s.place h p g) := by
  rcases s.place_cases h p g with e | ⟨r, -, -, e⟩
  · rw [e]; exact .refl s
  · rw [e]; exact (s.putAllot_grantsOnly _ _).trans (State.handEntry_grantsOnly _ _ _)

/-- A run of moves touches records, zones and stations alone. -/
theorem State.Moves.grantsOnly (m : State.Moves W req s t) : s.GrantsOnly t := by
  induction m with
  | refl => exact .refl s
  | put _ _ _ ih => exact ih.trans (State.putAllot_grantsOnly _ _ _)
  | place _ _ _ _ ih => exact ih.trans (State.place_grantsOnly _ _ _ _)
  | normal _ _ _ ih => exact ih.trans (State.updZone_grantsOnly _ _ _)
  | urgent _ _ _ ih => exact ih.trans (State.updZone_grantsOnly _ _ _)

theorem State.GrantsOnly.fields (g : s.GrantsOnly t) :
    t.stack = s.stack ∧ t.sleds = s.sleds ∧ t.assessor = s.assessor ∧ t.warmTimers = s.warmTimers ∧
      t.service = s.service ∧ t.table = s.table ∧ t.pointer = s.pointer ∧ t.attention = s.attention ∧
      t.port = s.port ∧ t.resetHeld = s.resetHeld ∧ t.curtailPins = s.curtailPins ∧ t.readyPin = s.readyPin ∧
      t.attentionPin = s.attentionPin ∧ t.mdo = s.mdo ∧ t.pending = s.pending := by
  unfold State.GrantsOnly at g
  rw [g]
  simp

theorem State.Moves.sleds (m : State.Moves W req s t) : t.sleds = s.sleds := m.grantsOnly.fields.2.1

theorem State.Moves.sled (m : State.Moves W req s t) (d : SledNo) : t.sled d = s.sled d := by
  simp [State.sled, m.sleds]

theorem State.Moves.reachable (m : State.Moves W req s t) (d : SledNo) : t.reachable d = s.reachable d := by
  simp [State.reachable, m.sled d]

theorem State.Moves.zoneOfSled (m : State.Moves W req s t) (d : SledNo) : t.zoneOfSled d = s.zoneOfSled d := by
  simp [State.zoneOfSled, m.sled d]

theorem State.Moves.zoneOf (m : State.Moves W req s t) (r : Allotment) : t.zoneOf r = s.zoneOf r :=
  m.zoneOfSled r.sled

/-- A FREE handle stays FREE through a run of moves. -/
theorem State.Moves.allot_none (m : State.Moves W req s t) {h : Handle} (hs : s.allot h = none) :
    t.allot h = none := by
  induction m with
  | refl => exact hs
  | put _ ha _ ih =>
    rename_i k _ _ _ _
    have : h ≠ k := fun e => by subst e; rw [ih] at ha; cases ha
    simp [State.putAllot_allot, this, ih]
  | place k p g _ ih =>
    rename_i u _
    rcases u.place_cases k p g with e | ⟨r, hr, -, e⟩
    · rw [e]; exact ih
    · have : h ≠ k := fun e => by subst e; rw [ih] at hr; cases hr
      rw [e]; simp [State.putAllot_allot, this, ih]
  | normal _ _ _ ih => exact ih
  | urgent _ _ _ ih => exact ih

/-- A property of records that every write of `W` and every placing keeps is kept by a run of moves. -/
theorem State.Moves.allot_some (m : State.Moves W req s t) (P : Allotment → Prop)
    (hW : ∀ r q, W r q → P r → P q)
    (hA : ∀ r p g, r.unacked < 15 → P r → P (r.advance p g)) {h : Handle} {r : Allotment}
    (hs : s.allot h = some r) (hP : P r) : ∃ q, t.allot h = some q ∧ P q := by
  induction m with
  | refl => exact ⟨r, hs, hP⟩
  | put _ ha hw ih =>
    rename_i k a b _
    by_cases e : h = k
    · subst e
      obtain ⟨q, hq, hPq⟩ := ih
      rw [ha] at hq
      cases hq
      exact ⟨b, by simp, hW _ _ hw hPq⟩
    · simpa [State.putAllot_allot, e] using ih
  | place k p g _ ih =>
    rename_i u _
    rcases u.place_cases k p g with e | ⟨a, ha, hm, e⟩
    · rw [e]; exact ih
    · rw [e]
      by_cases e' : h = k
      · subst e'
        obtain ⟨q, hq, hPq⟩ := ih
        rw [ha] at hq
        cases hq
        refine ⟨a.advance p g, by simp, hA _ _ _ ?_ hPq⟩
        simp [State.mayPlace] at hm
        exact hm.2
      · simpa [State.putAllot_allot, e'] using ih
  | normal _ _ _ ih => exact ih
  | urgent _ _ _ ih => exact ih

/-- The contract and the mark of a living record stand through what an event does to grants and requests. -/
theorem State.Acts.allot_some (m : s.Acts t) {h : Handle} {r : Allotment} (hs : s.allot h = some r) :
    ∃ q, t.allot h = some q ∧ r.SameContractFields q ∧ q.mark = r.mark :=
  State.Moves.allot_some m (fun q => r.SameContractFields q ∧ q.mark = r.mark)
    (fun _ _ w k => ⟨k.1.trans w.contract, w.mark.trans k.2⟩)
    (fun a p g _ k => ⟨k.1.trans (Allotment.advance_keeps p g a).1, (Allotment.advance_keeps p g a).2.1.trans k.2⟩)
    hs ⟨.refl r, rfl⟩

/-- The dispatcher besides leaves the target and the demands (R69). -/
theorem State.Dispatches.allot_some (m : s.Dispatches t) {h : Handle} {r : Allotment} (hs : s.allot h = some r) :
    ∃ q, t.allot h = some q ∧ r.SameContractFields q ∧ q.mark = r.mark ∧ q.target = r.target ∧
      q.demand = r.demand ∧ q.demandUsed = r.demandUsed := by
  refine State.Moves.allot_some m
    (fun q => r.SameContractFields q ∧ q.mark = r.mark ∧ q.target = r.target ∧ q.demand = r.demand ∧
      q.demandUsed = r.demandUsed) (fun _ _ w k => ?_) (fun a p g _ k => ?_) hs ⟨.refl r, rfl, rfl, rfl, rfl⟩
  · exact ⟨k.1.trans w.contract, w.mark.trans k.2.1, w.target.trans k.2.2.1, w.demand.trans k.2.2.2.1,
      w.demandUsed.trans k.2.2.2.2⟩
  · have := Allotment.advance_keeps p g a
    exact ⟨k.1.trans this.1, this.2.1.trans k.2.1, this.2.2.1.trans k.2.2.1, this.2.2.2.1.trans k.2.2.2.1,
      this.2.2.2.2.1.trans k.2.2.2.2⟩

/-- The values in flight stay counted through a run of writes that keep them so (R66, R70). -/
theorem State.Acts.flight (m : s.Acts t) {h : Handle} {r : Allotment} (hs : s.allot h = some r)
    (hf : r.sent ≤ r.highest ∧ r.unacked ≤ 15) :
    ∃ q, t.allot h = some q ∧ q.sent ≤ q.highest ∧ q.unacked ≤ 15 :=
  State.Moves.allot_some m (fun q => q.sent ≤ q.highest ∧ q.unacked ≤ 15)
    (fun _ _ w k => ⟨w.flight k.1, le_trans w.unacked k.2⟩)
    (fun a p g hu k => by
      have := Allotment.advance_keeps p g a
      exact ⟨this.2.2.2.2.2.1 k.1, by omega⟩) hs hf

theorem Zone.SameButSums.refl (v : Zone) : v.SameButSums v := rfl

theorem Zone.SameButSums.write {v w : Zone} (h : v.SameButSums w) (x : Nat) (n u : Bool) :
    v.SameButSums { w with x := x, normalReq := n, urgentReq := u } := by
  cases v; cases w; simp_all [Zone.SameButSums]

/-- A run of moves keeps every field of a zone but X and the two requests. -/
theorem State.Moves.zone (m : State.Moves W req s t) (z : ZoneNo) : (s.zone z).SameButSums (t.zone z) := by
  induction m with
  | refl => exact .refl _
  | put _ _ _ ih =>
    rw [State.putAllot_zone]
    split
    · exact ih.write _ _ _
    · exact ih
  | place k p g _ ih =>
    rename_i u _
    rcases u.place_cases k p g with e | ⟨r, -, -, e⟩
    · rw [e]; exact ih
    · rw [e, State.handEntry_zone, State.putAllot_zone]
      split
      · exact ih.write _ _ _
      · exact ih
  | normal y _ _ ih =>
    unfold State.requestNormal
    rw [State.updZone_zone]
    split
    · exact ih.write _ _ _
    · exact ih
  | urgent y _ _ ih =>
    unfold State.requestUrgent
    rw [State.updZone_zone]
    split
    · exact ih.write _ _ _
    · exact ih

/-- The dispatcher sets no request. -/
theorem State.Dispatches.requests (m : s.Dispatches t) (z : ZoneNo) :
    (t.zone z).normalReq = (s.zone z).normalReq ∧ (t.zone z).urgentReq = (s.zone z).urgentReq := by
  induction m with
  | refl => exact ⟨rfl, rfl⟩
  | put _ _ _ ih =>
    rw [State.putAllot_zone]
    split <;> exact ih
  | place k p g _ ih =>
    rename_i u _
    rcases u.place_cases k p g with e | ⟨r, -, -, e⟩
    · rw [e]; exact ih
    · rw [e, State.handEntry_zone, State.putAllot_zone]
      split <;> exact ih
  | normal _ hr _ _ => exact hr.elim
  | urgent _ hr _ _ => exact hr.elim

/-- A request set stays set through a run of moves. -/
theorem State.Moves.requests (m : State.Moves W req s t) (z : ZoneNo) :
    ((s.zone z).normalReq = true → (t.zone z).normalReq = true) ∧
      ((s.zone z).urgentReq = true → (t.zone z).urgentReq = true) := by
  induction m with
  | refl => exact ⟨id, id⟩
  | put _ _ _ ih =>
    rw [State.putAllot_zone]
    split <;> exact ih
  | place k p g _ ih =>
    rename_i u _
    rcases u.place_cases k p g with e | ⟨r, -, -, e⟩
    · rw [e]; exact ih
    · rw [e, State.handEntry_zone, State.putAllot_zone]
      split <;> exact ih
  | normal y _ _ ih =>
    unfold State.requestNormal
    rw [State.updZone_zone]
    split
    · exact ⟨fun _ => rfl, ih.2⟩
    · exact ih
  | urgent y _ _ ih =>
    unfold State.requestUrgent
    rw [State.updZone_zone]
    split
    · exact ⟨ih.1, fun _ => rfl⟩
    · exact ih

theorem Station.SameButQueue.write {v w : Station} (h : v.SameButQueue w) (q : List Frame) :
    v.SameButQueue { w with queue := q } := by
  cases v; cases w; simp_all [Station.SameButQueue]

/-- A run of moves keeps every field of a station but its queue. -/
theorem State.Moves.station (m : State.Moves W req s t) (st : StationNo) :
    (s.station st).SameButQueue (t.station st) := by
  induction m with
  | refl => exact rfl
  | put _ _ _ ih => simpa using ih
  | place k p g _ ih =>
    rename_i u _
    rcases u.place_cases k p g with e | ⟨r, -, -, e⟩
    · rw [e]; exact ih
    · rw [e]
      unfold State.handEntry
      split
      · simpa using ih
      · rw [State.updStation_station]
        split
        · simpa using ih.write _
        · simpa using ih
  | normal _ _ _ ih => exact ih
  | urgent _ _ _ ih => exact ih

end Sys2Proof.Machine
end

