-- ==== Sys2Proof/Laws/Serve.lean ====
section
/-! SUPPORT. What the apportioner can do at the end of an event, said once: nothing, while it is busy or no request is
pending; or the take of the zone it chooses. -/

namespace Sys2Proof.Machine

/-! ## The present ce -/

/-- The present ce of a record is the ce in force that the statements spell (R51, R60). -/
theorem State.presentCe_eq_ceInForce (s : State) (r : Allotment) : s.presentCe r = s.ceInForce r := by
  unfold State.presentCe State.ceInForce
  cases h : (s.sled r.sled).eff <;> simp [effectiveCeiling, derateFor]

/-! ## Snapshot marks -/

theorem State.setMark_allot (m : Bool) (h k : Handle) (s : State) :
    (s.setMark m h).allot k = if k = h then (s.allot k).map fun r => { r with mark := m } else s.allot k := by
  unfold State.setMark
  by_cases e : k = h
  · subst e
    cases hr : s.allot k <;> simp [hr]
  · cases hr : s.allot h <;> simp [e, State.setAllot_allot]

theorem State.setMark_only (m : Bool) (h : Handle) (s : State) :
    s.setMark m h = { s with allotments := (s.setMark m h).allotments } := by
  unfold State.setMark
  split <;> rfl

/-- Marking a list of handles marks exactly those and nothing else. -/
theorem State.setMarks_allot (m : Bool) (l : List Handle) (s : State) (k : Handle) :
    (l.foldl (fun s h => s.setMark m h) s).allot k =
      if k ∈ l then (s.allot k).map fun r => { r with mark := m } else s.allot k := by
  induction l generalizing s with
  | nil => simp
  | cons a l ih =>
    rw [List.foldl_cons, ih, State.setMark_allot]
    by_cases e : k = a
    · subst e
      cases s.allot k <;> simp
    · simp [e]

theorem State.setMarks_only (m : Bool) (l : List Handle) (s : State) :
    l.foldl (fun s h => s.setMark m h) s =
      { s with allotments := (l.foldl (fun s h => s.setMark m h) s).allotments } := by
  induction l generalizing s with
  | nil => rfl
  | cons a l ih =>
    rw [List.foldl_cons, ih]
    rw [State.setMark_only m a s]

/-! ## The take of a zone (R49) -/

/-- The take writes the service, the zone's requests and the marks of the zone's records, and nothing else. -/
theorem State.takeZone_only (z : ZoneNo) (s : State) :
    s.takeZone z =
      { s with
        allotments := (s.takeZone z).allotments
        zones := (s.updZone z fun v => { v with normalReq := false, urgentReq := false }).zones
        service := (s.takeZone z).service } := by
  unfold State.takeZone
  dsimp only
  rw [State.setMarks_only]
  rfl

@[simp] theorem State.takeZone_allot (z : ZoneNo) (s : State) (k : Handle) :
    (s.takeZone z).allot k =
      if k ∈ s.zoneHandles z then (s.allot k).map fun r => { r with mark := true } else s.allot k :=
  State.setMarks_allot true (s.zoneHandles z)
    (s.updZone z fun v => { v with normalReq := false, urgentReq := false }) k

theorem State.takeZone_zone (z y : ZoneNo) (s : State) :
    (s.takeZone z).zone y =
      if y = z then { s.zone y with normalReq := false, urgentReq := false } else s.zone y := by
  rw [State.takeZone_only]
  exact State.updZone_zone z y (fun v => { v with normalReq := false, urgentReq := false }) s

@[simp] theorem State.takeZone_service (z : ZoneNo) (s : State) : (s.takeZone z).service.isSome = true := rfl

/-! ## The end of an event (R45, R46) -/

theorem State.serveRequests_busy {s : State} (h : s.service.isSome = true) : s.serveRequests = s := by
  simp [State.serveRequests, h]

/-- Everything the apportioner can do at the end of an event. -/
theorem State.serveRequests_cases (s : State) :
    (s.service.isSome = true ∧ s.serveRequests = s) ∨
      (s.service = none ∧ s.chooseZone = none ∧ s.serveRequests = s) ∨
      ∃ z p, s.service = none ∧ s.chooseZone = some (z, p) ∧
        s.serveRequests = ({ s with pointer := p } : State).takeZone z := by
  unfold State.serveRequests
  cases hv : s.service with
  | some v => simp
  | none =>
    cases hc : s.chooseZone with
    | none => simp
    | some q => exact .inr (.inr ⟨q.1, q.2, rfl, rfl, by simp⟩)

/-- The apportioner chooses no zone only where no request is pending (R46). -/
theorem State.chooseZone_none {s : State} (h : s.chooseZone = none) (z : ZoneNo) :
    (s.zone z).normalReq = false ∧ (s.zone z).urgentReq = false := by
  unfold State.chooseZone at h
  split at h
  · cases h
  · rename_i hu
    split at h
    · cases h
    · simp only [Option.map_eq_none_iff, List.find?_eq_none, List.mem_finRange, true_implies, Bool.not_eq_true] at h hu
      exact ⟨h z, hu z⟩

/-- A zone the apportioner chooses has a request pending (R46). -/
theorem State.chooseZone_some {s : State} {z : ZoneNo} {p : Fin 16} (h : s.chooseZone = some (z, p)) :
    (s.zone z).urgentReq = true ∨ (s.zone z).normalReq = true := by
  unfold State.chooseZone at h
  split at h
  · rename_i hu
    cases h
    exact .inl (by simpa using List.find?_some hu)
  · split at h
    · rename_i hw
      cases h
      exact .inr (by simpa [State.pointerWalk] using List.find?_some hw)
    · simp only [Option.map_eq_some_iff, Prod.mk.injEq] at h
      obtain ⟨y, hy, rfl, -⟩ := h
      exact .inr (by simpa using List.find?_some hy)

/-- Whatever an event set, once the apportioner has served no request waits while it is free (R45). -/
theorem State.serveRequests_quiet (s : State) : s.serveRequests.QuietLaw := by
  intro hv
  rcases s.serveRequests_cases with ⟨h, e⟩ | ⟨-, h, e⟩ | ⟨z, p, -, -, e⟩
  · rw [e] at hv
    simp [hv] at h
  · rw [e]
    exact fun z => State.chooseZone_none h z
  · rw [e] at hv
    have := State.takeZone_service z { s with pointer := p }
    rw [hv] at this
    cases this

/-- The end of an event keeps every record but for its snapshot mark. -/
theorem State.serveRequests_sameRecord (s : State) (h : Handle) : s.SameRecord s.serveRequests h := by
  have same : s.SameRecord s h := by
    unfold State.SameRecord
    cases hr : s.allot h
    · rfl
    · exact ⟨_, rfl, rfl⟩
  rcases s.serveRequests_cases with ⟨-, e⟩ | ⟨-, -, e⟩ | ⟨z, p, -, -, e⟩
  · rwa [e]
  · rwa [e]
  · have k : s.serveRequests.allot h = s.allot h ∨
        s.serveRequests.allot h = (s.allot h).map fun r => { r with mark := true } := by
      rw [e, State.takeZone_allot]
      split
      · exact .inr rfl
      · exact .inl rfl
    unfold State.SameRecord
    cases hr : s.allot h with
    | none => rw [hr] at k; simpa using k
    | some r =>
      rw [hr] at k
      rcases k with k | k
      · exact ⟨r, k, rfl⟩
      · exact ⟨_, k, rfl⟩

/-- The end of an event keeps every field of a zone but the two requests. -/
theorem State.serveRequests_zone (s : State) (y : ZoneNo) :
    s.serveRequests.zone y =
      { s.zone y with
        normalReq := (s.serveRequests.zone y).normalReq
        urgentReq := (s.serveRequests.zone y).urgentReq } := by
  rcases s.serveRequests_cases with ⟨-, e⟩ | ⟨-, -, e⟩ | ⟨z, p, -, -, e⟩
  · rw [e]
  · rw [e]
  · rw [e, State.takeZone_zone]
    split <;> rfl

/-- The end of an event writes the marks, the requests, the service and the pointer, and nothing else. -/
theorem State.serveRequests_only (s : State) :
    s.serveRequests =
      { s with
        allotments := s.serveRequests.allotments, zones := s.serveRequests.zones
        service := s.serveRequests.service, pointer := s.serveRequests.pointer } := by
  rcases s.serveRequests_cases with ⟨-, e⟩ | ⟨-, -, e⟩ | ⟨z, p, -, -, e⟩
  · rw [e]
  · rw [e]
  · rw [e, State.takeZone_only]

/-- A normal request pending before the end of an event is pending after it, or its zone has been taken (R45, R46). -/
theorem State.serveRequests_raised {s t : State} {z : ZoneNo} (hs : t.service = s.service)
    (h : (t.zone z).normalReq = true) : s.RaisedNormal t.serveRequests z := by
  rcases t.serveRequests_cases with ⟨-, e⟩ | ⟨-, -, e⟩ | ⟨y, p, hv, -, e⟩
  · rw [e]; exact .inl h
  · rw [e]; exact .inl h
  · rw [e]
    by_cases k : z = y
    · subst k
      exact .inr ⟨hs.symm.trans hv, _, rfl, rfl⟩
    · left
      rw [State.takeZone_zone, if_neg k]
      exact h

end Sys2Proof.Machine
end

