-- ==== Sys2Proof/Laws/Events.lean ====
section
/-! SUPPORT. What the larger shared operations can do, said once: the freeing of a record (R20), the review of the
thermal states along a chain (R98, R99), a loss (R123), and the completion of a recompute (R59 to R62). -/

namespace Sys2Proof.Machine

/-! ## Freeing (R20) -/

/-- The freeing of a living record takes it out of the table and its handle to the top of the stack. -/
theorem State.freeAllot_stack {h : Handle} {r : Allotment} {s : State} (hr : s.allot h = some r) :
    (s.freeAllot h).stack = h :: s.stack := by
  simp only [State.freeAllot, hr, State.requestNormalFor, State.requestNormal]
  repeat' split
  all_goals rfl

theorem State.freeAllot_free {h : Handle} {s : State} (hr : s.allot h = none) : s.freeAllot h = s := by
  simp [State.freeAllot, hr]

theorem State.requestNormalFor_allot (d : SledNo) (s : State) (k : Handle) :
    (s.requestNormalFor d).allot k = s.allot k := by
  unfold State.requestNormalFor
  split <;> rfl

theorem State.requestNormalFor_sled (d e : SledNo) (s : State) : (s.requestNormalFor d).sled e = s.sled e := by
  unfold State.requestNormalFor
  split <;> rfl

/-- The freeing of a handle empties its place alone. -/
theorem State.freeAllot_allot (h k : Handle) (s : State) :
    (s.freeAllot h).allot k = if k = h then none else s.allot k := by
  cases hr : s.allot h with
  | none =>
    rw [State.freeAllot_free hr]
    by_cases e : k = h
    · subst e; simpa using hr
    · simp [e]
  | some r =>
    simp only [State.freeAllot, hr]
    rw [State.requestNormalFor_allot]
    show (State.setAllot h none _).allot k = _
    rw [State.setAllot_allot]
    split
    · rfl
    · rw [State.updSled_allot]
      unfold State.dropEntry
      rw [State.updStation_allot]
      split <;> rfl

/-- The freeing of a living record takes its handle out of its sled's list, and touches no other sled. -/
theorem State.freeAllot_sled {h : Handle} {r : Allotment} {s : State} (hr : s.allot h = some r) (d : SledNo) :
    (s.freeAllot h).sled d =
      if d = r.sled then { s.sled d with handles := (s.sled d).handles.filter fun k => k != h } else s.sled d := by
  simp only [State.freeAllot, hr]
  rw [State.requestNormalFor_sled]
  refine (State.updSled_sled r.sled d (fun v => { v with handles := v.handles.filter fun k => k != h }) _).trans ?_
  have keep (u : State) : (u.dropEntry r.sled h).sled d = u.sled d := rfl
  rw [keep]
  cases s.zoneOf r <;> rfl

/-! ## Thermal states along a chain (R98, R99) -/

theorem State.Acts.sled {s t : State} (m : s.Acts t) (d : SledNo) : t.sled d = s.sled d := State.Moves.sled m d

theorem State.requestUrgentFor_acts (d : SledNo) (s : State) : s.Acts (s.requestUrgentFor d) := by
  unfold State.requestUrgentFor
  split
  · exact .refl
  · exact .urgent _ trivial .refl

/-- The consequences of a change touch no sled record (R100 to R102). -/
theorem State.consequences_sled (d e : SledNo) (old new : Thermal) (s : State) :
    (s.consequences d old new).sled e = s.sled e := by
  unfold State.consequences
  split
  · split
    · rfl
    · exact (State.requestNormalFor_acts d _).sled e
    · exact (State.requestUrgentFor_acts d _).sled e
    · exact ((State.requestUrgentFor_acts d _).trans (State.criticalAction_acts d _)).sled e
  · exact (State.requestNormalFor_acts d _).sled e

/-- A review writes the effective state that R98 gives into the sled, and no other sled. -/
theorem State.reviewEff_sled (d e : SledNo) (s : State) :
    (s.reviewEff d).1.sled e = if e = d then { s.sled e with eff := s.effectiveFor d } else s.sled e := by
  unfold State.reviewEff
  dsimp only
  split
  · rename_i k
    by_cases x : e = d
    · subst x; simp [k]
    · simp [x]
  · rw [State.consequences_sled, State.updSled_sled]

/-- Two sled tables that agree but for effective states. -/
def State.SledsButEff (s t : State) : Prop := ∀ e : SledNo, t.sled e = { s.sled e with eff := (t.sled e).eff }

theorem State.SledsButEff.refl (s : State) : s.SledsButEff s := fun _ => rfl

theorem State.SledsButEff.trans {s t u : State} (h : s.SledsButEff t) (k : t.SledsButEff u) : s.SledsButEff u :=
  fun e => by
    have a := h e
    have b := k e
    rw [a] at b
    exact b

theorem State.reviewEff_butEff (d : SledNo) (s : State) : s.SledsButEff (s.reviewEff d).1 := fun e => by
  rw [State.reviewEff_sled]
  split <;> rfl

theorem State.hop_butEff (l : List SledNo) (s : State) : s.SledsButEff (s.hop l).1 := by
  unfold State.hop
  generalize l.flatMap s.downstreamOf = cs
  suffices h : ∀ acc : State × List SledNo, s.SledsButEff acc.1 →
      s.SledsButEff (cs.foldl
        (fun acc c => ((acc.1.reviewEff c).1, if (acc.1.reviewEff c).2 then acc.2 ++ [c] else acc.2)) acc).1 from
    h (s, []) (.refl s)
  induction cs with
  | nil => exact fun _ h => h
  | cons c cs ih => exact fun acc h => ih _ (h.trans (acc.1.reviewEff_butEff c))

theorem State.carry_butEff (n : Nat) (l : List SledNo) (s : State) : s.SledsButEff (State.carry n l s) := by
  induction n generalizing l s with
  | zero => exact .refl s
  | succ n ih => exact (s.hop_butEff l).trans (ih _ _)

/-- The review of a chain changes effective states alone in the sled table (R99). -/
theorem State.reviewChain_butEff (d : SledNo) (s : State) : s.SledsButEff (s.reviewChain d) := by
  unfold State.reviewChain
  split
  · exact (s.reviewEff_butEff d).trans (State.carry_butEff _ _ _)
  · exact .refl s

/-! ## Loss (R123) -/

/-- A loss changes the sled's link state, its fallback counters, its frames and its item, and nothing else. -/
theorem State.lose_only (d : SledNo) (s : State) :
    s.lose d =
      { s with
        sleds := (s.updSled d fun r => { r with link := .lost, fallbacks := 0, elapsed := false }).sleds
        stations := (s.dropFrames d).stations
        attention :=
          { s.attention with sleds := s.attention.sleds.set d { s.attention.sleds[d] with lost := true } }
        attentionPin := (s.lose d).attentionPin } := rfl

/-! ## Completion (R59 to R62) -/

/-- The applied targets are a run of moves. -/
theorem State.applyTargets_acts (l : List (Snap × Nat)) (s : State) :
    s.Acts (l.foldl (fun s p => s.applyTarget p) s) := .foldl _ (fun s p => s.applyTarget_acts p) l s

/-- After a completion no request waits while the apportioner is free (R45, R62). -/
theorem State.complete_quiet (v : Service) (s : State) : (s.complete v).QuietLaw := State.serveRequests_quiet _

end Sys2Proof.Machine
end

