-- ==== Sys2Proof/Laws/Port.lean ====
section
/-! SUPPORT. What the management port can do with a command, said once: kept out by reset, a write while busy, or
taken; and what each verdict leaves. -/

namespace Sys2Proof.Machine

/-! ## The reset gate -/

@[simp] theorem unlessReset_held {f : State → State} {s : State} (h : s.resetHeld = true) : unlessReset f s = s := by
  simp [unlessReset, h]

@[simp] theorem unlessReset_running {f : State → State} {s : State} (h : s.resetHeld = false) :
    unlessReset f s = f s := by
  simp [unlessReset, h]

/-! ## The three ways of a command (R172, R173, R176) -/

theorem takeCommand_busy {code : Byte} {ps : List Byte} {j : State → Verdict} {s : State}
    (h : s.resetHeld = false) (b : s.port.state = .responding) :
    takeCommand code ps j s = s.writeBusy (withCheck (code :: ps)).length := by
  simp [takeCommand, h, b]

theorem takeCommand_taken {code : Byte} {ps : List Byte} {j : State → Verdict} {s : State} (a : s.Accepting) :
    takeCommand code ps j s =
      (s.beginTake (withCheck (code :: ps))).conclude code ps.head? (j (s.beginTake (withCheck (code :: ps)))) := by
  obtain ⟨h, b⟩ := a
  simp only [takeCommand, unlessReset_running h, State.takeFrame]
  cases hp : s.port.state <;> simp_all

/-! ## What the port keeps of a frame (R172, R191) -/

@[simp] theorem Port.receive_command (l : List Byte) (p : Port) : (p.receive l).command = l.take 40 := rfl
@[simp] theorem Port.receive_received (l : List Byte) (p : Port) : (p.receive l).received = l.length := rfl
@[simp] theorem Port.receive_crc (l : List Byte) (p : Port) : (p.receive l).crc = crc8 l.dropLast := rfl
@[simp] theorem Port.receive_latest (l : List Byte) (p : Port) : (p.receive l).latest = l.getLast? := rfl
@[simp] theorem Port.receive_state (l : List Byte) (p : Port) : (p.receive l).state = p.state := rfl
@[simp] theorem Port.receive_response (l : List Byte) (p : Port) : (p.receive l).response = p.response := rfl
@[simp] theorem Port.receive_building (l : List Byte) (p : Port) : (p.receive l).building = p.building := rfl
@[simp] theorem Port.receive_responseRead (l : List Byte) (p : Port) : (p.receive l).responseRead = p.responseRead := rfl
@[simp] theorem Port.receive_masks (l : List Byte) (p : Port) : (p.receive l).masks = p.masks := rfl
@[simp] theorem Port.receive_flags (l : List Byte) (p : Port) : (p.receive l).flags = p.flags := rfl
@[simp] theorem Port.receive_lastRefused (l : List Byte) (p : Port) : (p.receive l).lastRefused = p.lastRefused := rfl

/-- One more byte of a frame: it is stored in the buffer, where that holds fewer than 40, and counted; it becomes the
latest, and the byte that was the latest goes through the running CRC-8, which is how the port keeps it without storing
the frame (R172, R191). -/
theorem Port.receive_snoc (l : List Byte) (b : Byte) (p : Port) :
    (p.receive (l ++ [b])).command = ((p.receive l).command ++ if l.length < 40 then [b] else []) ∧
      (p.receive (l ++ [b])).latest = some b ∧ (p.receive (l ++ [b])).received = (p.receive l).received + 1 ∧
      (p.receive (l ++ [b])).crc = ((p.receive l).latest.elim 0xFF#8 fun x => crcByte (p.receive l).crc x) := by
  refine ⟨?_, by simp, by simp, ?_⟩
  · by_cases h : l.length < 40
    · simp [List.take_append, h, List.take_of_length_le (show [b].length ≤ 40 - l.length by simp; omega)]
    · simp [List.take_append, h, show 40 - l.length = 0 by omega]
  rcases l.eq_nil_or_concat with rfl | ⟨k, x, rfl⟩
  · rfl
  · simp [crc8]

/-! ## The first steps of a take -/

/-- The frame checks on what the port keeps of a frame are those on the frame itself, of any length (R182, R191). -/
theorem State.beginTake_readFrame (frame : List Byte) (s : State) :
    let p := (s.beginTake frame).port
    readFrame p.received p.crc p.latest p.command = decodeFrame frame := rfl
@[simp] theorem State.beginTake_command (frame : List Byte) (s : State) :
    (s.beginTake frame).port.command = frame.take 40 := rfl

/-- The take's first two steps touch the port, READY and MDO alone (R173). -/
theorem State.beginTake_sameButPort (frame : List Byte) (s : State) : s.SameButPort (s.beginTake frame) := rfl

@[simp] theorem State.beginTake_flags (frame : List Byte) (s : State) :
    (s.beginTake frame).port.flags = s.takenFlags := rfl
@[simp] theorem State.beginTake_masks (frame : List Byte) (s : State) :
    (s.beginTake frame).port.masks = s.port.masks := rfl
@[simp] theorem State.beginTake_lastRefused (frame : List Byte) (s : State) :
    (s.beginTake frame).port.lastRefused = s.port.lastRefused := rfl
@[simp] theorem State.beginTake_state (frame : List Byte) (s : State) :
    (s.beginTake frame).port.state = .responding := rfl
@[simp] theorem State.beginTake_readyPin (frame : List Byte) (s : State) : (s.beginTake frame).readyPin = false := rfl
@[simp] theorem State.beginTake_allot (frame : List Byte) (s : State) (h : Handle) :
    (s.beginTake frame).allot h = s.allot h := rfl
@[simp] theorem State.beginTake_zone (frame : List Byte) (s : State) (z : ZoneNo) :
    (s.beginTake frame).zone z = s.zone z := rfl
@[simp] theorem State.beginTake_sled (frame : List Byte) (s : State) (d : SledNo) :
    (s.beginTake frame).sled d = s.sled d := rfl
@[simp] theorem State.beginTake_station (frame : List Byte) (s : State) (st : StationNo) :
    (s.beginTake frame).station st = s.station st := rfl
@[simp] theorem State.beginTake_stack (frame : List Byte) (s : State) : (s.beginTake frame).stack = s.stack := rfl
@[simp] theorem State.beginTake_service (frame : List Byte) (s : State) :
    (s.beginTake frame).service = s.service := rfl
@[simp] theorem State.beginTake_attention (frame : List Byte) (s : State) :
    (s.beginTake frame).attention = s.attention := rfl
@[simp] theorem State.beginTake_assessor (frame : List Byte) (s : State) :
    (s.beginTake frame).assessor = s.assessor := rfl

/-! ## What each verdict leaves -/

/-- A refusal after the first steps of a take refuses in the sense of the statements (R178, R180, R181). -/
theorem State.conclude_refused (code : Byte) (p : Option Byte) (d : Detail) (frame : List Byte) (s : State) :
    s.Refused ((s.beginTake frame).conclude code p (.refused d)) code p d :=
  ⟨rfl, rfl, rfl, rfl, rfl, rfl, rfl⟩

/-- DONE after an application that keeps the port answers DONE (R177). -/
theorem State.conclude_done (code : Byte) (p : Option Byte) (already : Bool) (payload : List Byte)
    (frame : List Byte) (s t : State) (hp : t.port = (s.beginTake frame).port) (hr : t.readyPin = false) :
    s.AnswersDone ((s.beginTake frame).conclude code p (.done already payload t)) code already payload := by
  simp [State.AnswersDone, State.Answers, State.conclude, State.respond, State.updPort, hp, hr]

/-- A verdict of adjusted classes, or DONE where there are none, answers as applied (R177, R180). -/
theorem State.conclude_applied (code : Byte) (p : Option Byte) (a : Adjusted) (payload : List Byte)
    (frame : List Byte) (s t : State) (hp : t.port = (s.beginTake frame).port) (hr : t.readyPin = false) :
    s.AnswersApplied ((s.beginTake frame).conclude code p (verdictOf a payload t)) code a payload := by
  by_cases h : a.any
  · simp [State.AnswersApplied, State.Answers, State.conclude, verdictOf, State.respond, State.updPort, hp, hr, h]
  · have : a.range = false ∧ a.order = false ∧ a.contract = false := by
      simpa [Adjusted.any, and_assoc] using h
    simp [State.AnswersApplied, State.Answers, State.conclude, verdictOf, State.respond, State.updPort, hp, hr, h,
      StickyFlags.raiseAdjusted, this]

/-- A conclusion leaves everything but the port to the application. -/
theorem State.conclude_sameButPort (code : Byte) (p : Option Byte) (s : State) (v : Verdict) :
    match v with
    | .refused _ => s.SameButPort (s.conclude code p v)
    | .done _ _ t => t.SameButPort (s.conclude code p v)
    | .adjusted _ _ t => t.SameButPort (s.conclude code p v) := by
  cases v <;> rfl

/-! ## Checks -/

/-- A number or code that is there passes its check. -/
theorem rangeCheck_within {adjust : Bool} {lo hi : Nat} {d : Detail} {v : Nat} (h : lo ≤ v ∧ v ≤ hi) :
    rangeCheck adjust lo hi d v = .ok (v, false) := by
  simp [rangeCheck, h]

/-- Out of range, the value moves to the bound it passes under adjust, and the detail refuses under refuse (R8). -/
theorem rangeCheck_outside {adjust : Bool} {lo hi : Nat} {d : Detail} {v : Nat} (h : ¬(lo ≤ v ∧ v ≤ hi)) :
    rangeCheck adjust lo hi d v = if adjust then .ok (if v < lo then lo else hi, true) else .error d := by
  simp only [rangeCheck, h, if_false]

/-- Whatever passes a RANGE check lies within the range. -/
theorem rangeCheck_bounds {adjust : Bool} {lo hi : Nat} {d : Detail} {v w : Nat} {a : Bool} (le : lo ≤ hi)
    (h : rangeCheck adjust lo hi d v = .ok (w, a)) : lo ≤ w ∧ w ≤ hi ∧ (a = true ↔ ¬(lo ≤ v ∧ v ≤ hi)) := by
  unfold rangeCheck at h
  split at h
  · rename_i k
    cases h
    exact ⟨k.1, k.2, by simp [k]⟩
  · rename_i k
    split at h
    · cases h
      refine ⟨?_, ?_, by simpa using k⟩ <;> split <;> omega
    · cases h

end Sys2Proof.Machine
end

