-- ==== Sys2Proof/Laws/Queue.lean ====
section
/-! SUPPORT. What the downlink queue operations can do, said once (R135, R136, R139). -/

namespace Sys2Proof.Machine

/-! ## Entries -/

@[simp] theorem mem_putEntry_self (e : Entry) (l : List Entry) : e ∈ putEntry e l := by
  induction l with
  | nil => simp [putEntry]
  | cons x xs ih =>
    unfold putEntry
    repeat' split
    all_goals simp [ih]

/-- An entry put in a list stands there, and every other entry there stood there before. -/
theorem of_mem_putEntry {e x : Entry} {l : List Entry} (h : x ∈ putEntry e l) : x = e ∨ x ∈ l := by
  induction l with
  | nil => simpa [putEntry] using h
  | cons y ys ih =>
    unfold putEntry at h
    repeat' split at h
    all_goals simp only [List.mem_cons] at h ⊢
    · tauto
    · tauto
    · rcases h with h | h
      · exact .inr (.inl h)
      · rcases ih h with k | k
        · exact .inl k
        · exact .inr (.inr k)

/-- An entry of another handle stays. -/
theorem mem_putEntry_of_ne {e x : Entry} {l : List Entry} (hx : x.handle ≠ e.handle) (h : x ∈ l) :
    x ∈ putEntry e l := by
  induction l with
  | nil => cases h
  | cons y ys ih =>
    unfold putEntry
    rcases List.mem_cons.1 h with rfl | h
    · repeat' split
      · contradiction
      · simp
      · simp
    · repeat' split
      · simp [h]
      · simp [h]
      · simp [ih h]

/-- The ascending handle order is kept (R136). -/
theorem putEntry_ascending {e : Entry} {l : List Entry} (h : (l.map (·.handle)).Pairwise (· < ·)) :
    ((putEntry e l).map (·.handle)).Pairwise (· < ·) := by
  induction l with
  | nil => simp [putEntry]
  | cons x xs ih =>
    rw [List.map_cons, List.pairwise_cons] at h
    unfold putEntry
    split
    · rename_i k
      rw [List.map_cons, List.pairwise_cons]
      exact ⟨k ▸ h.1, h.2⟩
    · rename_i k
      split
      · rename_i lt
        rw [List.map_cons, List.pairwise_cons]
        refine ⟨fun a ha => ?_, by rw [List.map_cons, List.pairwise_cons]; exact h⟩
        rcases List.mem_cons.1 ha with rfl | ha
        · exact lt
        · exact lt_trans lt (h.1 a ha)
      · rename_i ge
        rw [List.map_cons, List.pairwise_cons]
        refine ⟨fun a ha => ?_, ih h.2⟩
        obtain ⟨y, hy, rfl⟩ := List.mem_map.1 ha
        rcases of_mem_putEntry hy with rfl | hy
        · exact lt_of_le_of_ne (not_lt.1 ge) k
        · exact h.1 _ (List.mem_map_of_mem hy)

/-- With ascending entries, the entry put is the only one of its handle. -/
theorem putEntry_unique {e x : Entry} {l : List Entry} (h : (l.map (·.handle)).Pairwise (· < ·))
    (hx : x ∈ putEntry e l) (k : x.handle = e.handle) : x = e := by
  have p := (putEntry_ascending (e := e) h).imp (fun lt => ne_of_lt lt)
  exact List.inj_on_of_nodup_map p hx (mem_putEntry_self e l) k

/-! ## Frames -/

/-- Handing over an entry opens a frame at the tail for a sled that has none, and moves no other (R136). -/
theorem enqueue_sleds (d : SledNo) (e : Entry) (q : List Frame) :
    (enqueue d e q).map (·.sled) =
      if d ∈ q.map (·.sled) then q.map (·.sled) else q.map (·.sled) ++ [d] := by
  induction q with
  | nil => simp [enqueue]
  | cons f fs ih =>
    unfold enqueue
    by_cases k : f.sled = d
    · simp [k]
    · rw [if_neg k, List.map_cons, ih, List.map_cons]
      have : d ≠ f.sled := fun h => k h.symm
      by_cases m : d ∈ fs.map (·.sled)
      · simp [m]
      · simp only [List.mem_cons, this, m, or_self, if_false, List.cons_append]

/-- Every frame after an entry is handed over was there, or is the sled's with the entry put into it. -/
theorem of_mem_enqueue {d : SledNo} {e : Entry} {q : List Frame} {f : Frame} (h : f ∈ enqueue d e q) :
    f ∈ q ∨ f = ⟨d, .grant, [e]⟩ ∨ ∃ g ∈ q, g.sled = d ∧ f = { g with entries := putEntry e g.entries } := by
  induction q with
  | nil => exact .inr (.inl (by simpa [enqueue] using h))
  | cons x xs ih =>
    unfold enqueue at h
    split at h
    · rename_i k
      rcases List.mem_cons.1 h with rfl | h
      · exact .inr (.inr ⟨x, by simp, k, rfl⟩)
      · exact .inl (by simp [h])
    · rcases List.mem_cons.1 h with rfl | h
      · exact .inl (by simp)
      · rcases ih h with k | k | ⟨g, hg, k⟩
        · exact .inl (by simp [k])
        · exact .inr (.inl k)
        · exact .inr (.inr ⟨g, by simp [hg], k⟩)

/-- After an entry is handed over, some frame of the sled holds it. -/
theorem exists_mem_enqueue (d : SledNo) (e : Entry) (q : List Frame) :
    ∃ f ∈ enqueue d e q, f.sled = d ∧ e ∈ f.entries := by
  induction q with
  | nil => exact ⟨⟨d, .grant, [e]⟩, by simp [enqueue], rfl, by simp⟩
  | cons x xs ih =>
    unfold enqueue
    split
    · rename_i k
      exact ⟨_, List.mem_cons_self, k, by simp⟩
    · obtain ⟨f, hf, k⟩ := ih
      exact ⟨f, List.mem_cons_of_mem _ hf, k⟩

/-- Dropping a sled's frames keeps every other frame, in its place (R139). -/
theorem State.dropFrames_queue (d : SledNo) (s : State) (st : StationNo) :
    ((s.dropFrames d).station st).queue =
      if st = stationOf d then (s.station st).queue.filter fun f => f.sled != d else (s.station st).queue := by
  unfold State.dropFrames
  rw [State.updStation_station]
  split <;> rfl

@[simp] theorem State.dropFrames_waiting (d : SledNo) (s : State) :
    waitingFrame d ((s.dropFrames d).station (stationOf d)).queue = none := by
  rw [State.dropFrames_queue, if_pos rfl]
  simp [waitingFrame]

end Sys2Proof.Machine
end

