-- ==== Sys2Proof/Tests/Slice0.lean ====
section
/-! SUPPORT. The model's own tests: the words of the manual's examples, and a witness for the hypotheses of every
statement that has some. Expected values come from the manual (the section is named) or are worked by hand from it. -/

namespace Sys2Proof.Tests

set_option Elab.async false -- one kernel check at a time, within the memory of a build

open Sys2Proof.Machine

/-! ## The states the tests start from -/

/-- The state a command leaves. -/
def after (c : Instr) (s : State) : State :=
  match exec c s with
  | .next t => t
  | .fault _ => s
  | .refused _ => s

/-- The command answers a next state. -/
def completes (c : Instr) (s : State) : Bool :=
  match exec c s with
  | .next _ => true
  | .fault _ => false
  | .refused _ => false

theorem exists_next {c : Instr} {s : State} (h : completes c s = true) : exec c s = .next (after c s) := by
  unfold completes at h
  unfold after
  split at h <;> simp_all

/-- A LIVE record of idle 40, floor 80, ceiling 180, peak 200 that stands at `v`. -/
def standing (d : SledNo) (mask : ChannelMask) (g : GrantState) (v target : Nat) : Allotment :=
  { tag := .live, tenant := 7, sled := d, mask, idle := 40, peak := 200, floor := 80, ceiling := 180, weight := 4
    wake := true, partner := none, demand := some 120, demandUsed := none, target, sent := v, sequence := 5
    acked := v, highest := v, grant := g, restatements := 0, wakeAfter := false, mark := false
    latest := .grant (windowFor 40 200 v) (windowFor 40 200 80) 80, unacked := 0, fallbackFloor := 80 }

/-- Sixteen records: on LINKED sleds one settled, one that rises, one RETIRING and one with 15 placements not
acknowledged; a held pair; the park states on SILENT and LOST sleds; one UNLINKED, one PARKED on an IDLE sled, one
FALLEN in zone 2; and in zone 3 one that wakes after its park and one whose RELEASE is held back. -/
def records : List (Option Allotment) :=
  [some (standing 3 1 .settled 100 100),
    some { standing 3 2 .changing 100 135 with acked := 60, unacked := 1 },
    some { standing 4 1 .held 100 135 with partner := some 3 },
    some { standing 12 1 .held 100 135 with partner := some 2 },
    some { standing 5 1 .parked 40 100 with latest := .park },
    some { standing 5 2 .changing 100 100 with acked := 60, unacked := 1 },
    some { standing 4 2 .changing 100 40 with tag := .retiring, latest := .release, unacked := 1 },
    some { standing 6 1 .unlinked 40 40 with sequence := 0, latest := .none, demand := none },
    some { standing 12 2 .parking 100 100 with latest := .park, unacked := 1 },
    some { standing 12 4 .parked 40 100 with latest := .park },
    some { standing 12 8 .parkPending 100 100 with acked := 60, unacked := 1 },
    some (standing 14 1 .fallen 80 80),
    some { standing 7 1 .changing 100 100 with acked := 60, unacked := 15, weight := 5, restatements := 3 },
    some { standing 13 1 .parked 40 40 with sequence := 0, latest := .none, demand := none },
    some { standing 17 1 .parking 100 100 with latest := .park, unacked := 1, wakeAfter := true },
    some { standing 17 2 .changing 100 40 with tag := .retiring, unacked := 15 }]

/-- The waiting frame of a sled. -/
def waiting (d : SledNo) (entries : List (Handle × ChannelMask × EntryKind)) : Frame :=
  ⟨d, .grant, entries.map fun e => ⟨e.1, 5, e.2.1, e.2.2⟩⟩

/-- A sled with no report. -/
def placed (z : ZoneNo) (channels : Nat) (up : Option SledNo) (link : Link) (handles : List Handle) : Sled :=
  { Sled.powerOn with placement := some ⟨z, channels, up⟩, link, handles }

/-- The sleds of `demo`: every link state, the chains 3, 4, 12 and 15, 16, and 3 WARM. -/
def demoSleds : List (SledNo × Sled) :=
  [(3, { placed 1 2 none .linked [0, 1] with own := .warm, eff := .warm, answered := true }),
    (4, placed 1 2 (some 3) .linked [2, 6]),
    (5, { placed 1 2 none .lost [4, 5] with fallbacks := 3 }),
    (6, placed 1 1 none .idle [7]),
    (7, placed 1 1 none .linked [12]),
    (8, { placed 1 1 none .silent [] with silence := 7 }),
    (9, { placed 1 1 none .lost [] with fallbacks := 4 }),
    (12, { placed 1 4 (some 4) .silent [3, 8, 9, 10] with silence := 3, answered := true }),
    (13, placed 1 4 none .idle [13]),
    (14, { placed 2 1 none .lost [11] with fallbacks := 5, elapsed := true }),
    (15, placed 1 1 none .idle []),
    (16, placed 1 1 (some 15) .idle []),
    (17, placed 3 2 none .linked [14, 15])]

/-- A machine in the middle of service, with every class adjusted. The front command acknowledges handle 1, which
then rises by 2R to 132. -/
def demo : State :=
  { State.reset with
    allotments := ⟨⟨records ++ List.replicate 144 none⟩, by decide +kernel⟩
    stack := (List.finRange 160).drop 16
    zones := ((((State.reset.zones.set 1
        { Zone.powerOn with
          cb := 1100, ob := 1200, kb := 300, budget := 1200, x := 1060, floorSum := 1040, count := 13
          firstTaken := true, candidate := some true, filter := .running }).set 2
        { Zone.powerOn with cb := 100, ob := 100, budget := 100, x := 80, floorSum := 80, count := 1 }).set 3
        { Zone.powerOn with
          cb := 200, ob := 200, budget := 200, x := 200, floorSum := 160, count := 2
          firstTaken := true, filter := .running }).set 4
        { Zone.powerOn with firstTaken := true, candidate := some false, filter := .running })
    sleds := demoSleds.foldl (fun l e => l.set e.1 e.2) State.reset.sleds
    stations := (((State.reset.stations.set 0
        { Station.powerOn with
          timer := .running, pendingInterval := some 5
          queue := [waiting 3 [(1, 2, .grant 95 63)], waiting 4 [(6, 2, .release)]] }).set 1
        { Station.powerOn with timer := .running, pendingInterval := some 12, queue := [waiting 12 [(8, 2, .park)]] }).set 2
        { Station.powerOn with timer := .running, pendingInterval := some 5 })
    warmTimers := State.reset.warmTimers.set 3 .running
    port := { Port.powerOn with masks := ⟨true, true, true⟩ }
    pending := [.ack 3 [⟨1, 5⟩]] }

/-! ## The laws of a concrete state -/

/-- The table law with the handles from `n` up free in their order, as a decidable question. -/
abbrev TableCheck (n : Nat) (s : State) : Prop :=
  (s.stack = (List.finRange 160).drop n ∧ ∀ h : Handle, n ≤ h.val ↔ s.allot h = none) ∧
    (∀ d : SledNo, (s.sled d).handles.Pairwise (· < ·)) ∧
    (∀ d : SledNo, ∀ h ∈ (s.sled d).handles, ∃ r ∈ s.allot h, r.sled = d) ∧
    ∀ h : Handle, ∀ r ∈ s.allot h, h ∈ (s.sled r.sled).handles ∧ (s.sled r.sled).placement.isSome

/-- The laws of contracts, pairs and masks. -/
abbrev ContractCheck (s : State) : Prop :=
  (∀ h : Handle, ∀ r ∈ s.allot h,
    r.idle < r.peak ∧ r.idle ≤ r.floor ∧ r.floor ≤ r.ceiling ∧ r.ceiling ≤ r.peak ∧ 1 ≤ r.weight ∧ r.weight ≤ 15) ∧
  (∀ h : Handle, ∀ r ∈ s.allot h,
    ∀ k ∈ r.partner, ∃ q ∈ s.allot k, q.partner = some h ∧ r.tag = .live ∧ q.tag = .live ∧ r.sled ≠ q.sled ∧
      s.zoneOf r = s.zoneOf q ∧ r.sameContract q = true) ∧
  (∀ h : Handle, ∀ r ∈ s.allot h,
    ∀ p ∈ (s.sled r.sled).placement, r.mask ≠ 0 ∧ r.mask &&& ~~~(channelsBelow p.channels) = 0) ∧
  ∀ h : Handle, ∀ r ∈ s.allot h, ∀ k : Handle, ∀ q ∈ s.allot k, h ≠ k → r.sled = q.sled → r.mask &&& q.mask = 0

/-- The laws of the values in flight and of the grant states. -/
abbrev GrantCheck (s : State) : Prop :=
  (∀ h : Handle, ∀ r ∈ s.allot h, r.sent ≤ r.highest ∧ r.unacked ≤ 15) ∧
  (∀ h : Handle, ∀ r ∈ s.allot h, r.grant = .unlinked → r.acked = r.idle ∧ r.highest = r.idle) ∧
  (∀ h : Handle, ∀ r ∈ s.allot h, r.grant = .fallen → r.highest = r.acked) ∧
  (∀ h : Handle, ∀ r ∈ s.allot h, r.grant = .settled ∨ r.grant = .held → r.acked = r.sent ∧ r.highest = r.sent) ∧
  (∀ h : Handle, ∀ r ∈ s.allot h,
    r.grant = .unlinked ∨ r.grant = .settled ∨ r.grant = .held ∨ r.grant = .parked → r.unacked = 0) ∧
  (∀ h : Handle, ∀ r ∈ s.allot h, r.grant = .parking → s.reachable r.sled = true → r.tag = .live ∧ r.unacked ≤ 1) ∧
  ∀ h : Handle, ∀ r ∈ s.allot h, r.tag = .retiring → r.grant = .parked → r.acked = r.idle ∧ r.highest = r.idle

/-- The law of the zone sums. -/
abbrev SumCheck (s : State) : Prop :=
  ∀ z : ZoneNo, (s.zone z).x = s.exposureSum z ∧ (s.zone z).floorSum = s.floorTotal z ∧
    ((s.zone z).floorSum ≤ (s.zone z).cb ∧ (s.zone z).cb ≤ 16383) ∧ (s.zone z).count = (s.zoneHandles z).length

theorem mem_drop_finRange {n : Nat} (h : Handle) : h ∈ (List.finRange 160).drop n ↔ n ≤ h.val := by
  rw [List.mem_iff_getElem]
  constructor
  · rintro ⟨i, hi, rfl⟩
    simp
  · intro hn
    have hh := h.isLt
    exact ⟨h.val - n, by simp; omega, by simp [Fin.ext_iff]; omega⟩

theorem tableLaw_of {n : Nat} {s : State} (t : TableCheck n s) : s.TableLaw := by
  obtain ⟨⟨hs, hf⟩, ha, hl, hr⟩ := t
  exact
    { stackNodup := hs ▸ (List.nodup_finRange 160).sublist (List.drop_sublist n _)
      stackFree := fun h => by rw [hs, mem_drop_finRange]; exact hf h
      listAscending := ha
      listLiving := fun d h => ⟨fun hm => hl d h hm, fun ⟨r, hq, hd⟩ => hd ▸ (hr h r hq).1⟩
      sledPlaced := fun h r hq => (hr h r hq).2 }

theorem recordLaws_of {n : Nat} {s : State} (t : TableCheck n s) (c : ContractCheck s) (g : GrantCheck s) (m : SumCheck s) :
    s.RecordLaws where
  table :=
    tableLaw_of t
  contracts := c.1
  pairs := fun h k r hr hk => c.2.1 h r hr k hk
  masks := ⟨fun h r p hr hp => c.2.2.1 h r hr p hp, fun h k r q hr hq => c.2.2.2 h r hr k q hq⟩
  flight := g.1
  standing := fun h r hr =>
    ⟨g.2.1 h r hr, g.2.2.1 h r hr, g.2.2.2.1 h r hr, g.2.2.2.2.1 h r hr, g.2.2.2.2.2.1 h r hr, g.2.2.2.2.2.2 h r hr⟩
  sums := ⟨fun z => (m z).1, fun z => (m z).2.1, fun z => (m z).2.2.1, fun z => (m z).2.2.2⟩

/-- The laws of the settings and of the budgets. -/
abbrev SettingsCheck (s : State) : Prop :=
  (∀ z : ZoneNo, ((s.zone z).ob ≤ 16383 ∧ (s.zone z).kb ≤ 16383 ∧
      (1 ≤ (s.zone z).ramp ∧ (s.zone z).ramp ≤ 255) ∧ (s.zone z).deadband ≤ 255) ∧
    (s.zone z).budget = if (s.zone z).taken then min (s.zone z).ob (s.zone z).kb else (s.zone z).ob) ∧
  (∀ st : StationNo, (2 ≤ (s.station st).interval ∧ (s.station st).interval ≤ 255) ∧
    ∀ p ∈ (s.station st).pendingInterval, 2 ≤ p ∧ p ≤ 255 ∧ p ≠ (s.station st).interval) ∧
  (∀ d : SledNo, ∀ p ∈ (s.sled d).placement, 1 ≤ p.channels ∧ p.channels ≤ 4) ∧ s.assessor = Assessor.powerOn

theorem legal_powerOn : Assessor.powerOn.Legal := by unfold Assessor.Legal; decide

theorem settings_of {s : State} (c : SettingsCheck s) : s.SettingsLaw :=
  ⟨fun z => (c.1 z).1, c.2.2.2 ▸ legal_powerOn, fun st => (c.2.1 st).1, fun st p hp => (c.2.1 st).2 p hp, c.2.2.1⟩

theorem budgets_of {s : State} (c : SettingsCheck s) : s.BudgetLaw := fun z => (c.1 z).2

/-- The law of the queues. -/
abbrev QueueCheck (s : State) : Prop :=
  ∀ st : StationNo, ((s.station st).queue.map (·.sled)).Nodup ∧
    ∀ f ∈ (s.station st).queue, stationOf f.sled = st ∧ s.reachable f.sled = true ∧
      (f.entries.map (·.handle)).Pairwise (· < ·) ∧
      ∀ e ∈ f.entries, ∃ r ∈ s.allot e.handle, r.sled = f.sled ∧ r.latestEntry e.handle = some e

theorem queues_of {s : State} (c : QueueCheck s) : s.QueueLaw where
  oneFrame st := (c st).1
  lawful st f hf :=
    have a := (c st).2 f hf
    ⟨a.1, a.2.1, a.2.2.1, a.2.2.2⟩

/-- The laws of the links, of the chains and of the effective states. -/
abbrev SledCheck (s : State) : Prop :=
  (∀ d : SledNo, (s.sled d).link = .unplaced ↔ (s.sled d).placement = none) ∧
  (∀ d : SledNo, (s.sled d).link = .linked → (s.sled d).silence ≤ 2) ∧
  (∀ d : SledNo, (s.sled d).link = .silent → 3 ≤ (s.sled d).silence ∧ (s.sled d).silence ≤ 7) ∧
  (∀ d : SledNo, (s.sled d).fallbacks ≤ 5 ∧ ((s.sled d).elapsed = true ↔ (s.sled d).fallbacks = 5)) ∧
  (∀ d : SledNo, (s.sled d).link ≠ .lost → (s.sled d).fallbacks = 0) ∧
  (∀ d : SledNo, ∀ u ∈ s.upstreamOf d, u ≠ d ∧ (s.sled u).placement.isSome) ∧ (∀ d : SledNo, s.hopsUp d ≤ 3) ∧
  ∀ d : SledNo, (s.sled d).eff = s.effectiveFor d

theorem links_of {s : State} (c : SledCheck s) : s.LinkLaw := ⟨c.1, c.2.1, c.2.2.1, c.2.2.2.1, c.2.2.2.2.1⟩

theorem chains_of {s : State} (c : SledCheck s) : s.ChainLaw :=
  ⟨fun d u hu => c.2.2.2.2.2.1 d u hu, c.2.2.2.2.2.2.1⟩

theorem effective_of {s : State} (c : SledCheck s) : s.EffectiveLaw := c.2.2.2.2.2.2.2

/-- The windows of a latest entry are in range. -/
def windowsOk (r : Allotment) : Bool :=
  match r.latest with
  | .grant w wf f =>
    decide (1 ≤ w ∧ w ≤ 255) && decide (1 ≤ wf ∧ wf ≤ 255) && decide (r.idle ≤ f ∧ f ≤ r.peak)
  | .none | .park | .release => true

/-- The laws of the runtime fields. -/
abbrev RangeCheck (s : State) : Prop :=
  (∀ h : Handle, ∀ r ∈ s.allot h,
    (∀ v ∈ r.demand, r.idle ≤ v ∧ v ≤ r.peak) ∧ (∀ v ∈ r.demandUsed, r.idle ≤ v ∧ v ≤ r.peak) ∧
      r.idle ≤ r.target ∧ r.target ≤ r.ceiling) ∧
  (∀ h : Handle, ∀ r ∈ s.allot h,
    (r.idle ≤ r.sent ∧ r.sent ≤ r.peak) ∧ (r.idle ≤ r.acked ∧ r.acked ≤ r.peak) ∧
      (r.idle ≤ r.highest ∧ r.highest ≤ r.peak) ∧ r.idle ≤ r.fallbackFloor ∧ r.fallbackFloor ≤ r.peak) ∧
  ∀ h : Handle, ∀ r ∈ s.allot h,
    windowsOk r = true ∧ r.restatements ≤ 4 ∧ (s.reachable r.sled = true → r.restatements < 4)

theorem ranges_of {s : State} (c : RangeCheck s) : s.RangeLaw := by
  intro h r hr
  obtain ⟨h1, h2, h3⟩ := c.1 h r hr
  obtain ⟨h4, h5, h6, h7⟩ := c.2.1 h r hr
  obtain ⟨h8, h9⟩ := c.2.2 h r hr
  refine ⟨⟨h1, h2, h3, h4, h5, h6, h7, ?_⟩, h9⟩
  intro w wf f hl
  simpa [windowsOk, hl, and_assoc, Allotment.InSpan] using h8

/-- The laws of the snapshot in service, where no record outside it is marked. -/
abbrev SnapshotCheck (s : State) : Prop :=
  (∀ v ∈ s.service, (v.snaps.map (·.handle)).Pairwise (· < ·) ∧ (v.warmDerate ≤ 100 ∧ v.hotDerate ≤ 100) ∧
    ∀ e ∈ v.snaps, (e.idle < e.peak ∧ e.idle ≤ e.floor ∧ e.floor ≤ e.ceiling ∧ e.ceiling ≤ e.peak ∧ 1 ≤ e.weight ∧
      e.weight ≤ 15 ∧ ∀ u ∈ e.demand, e.idle ≤ u ∧ u ≤ e.peak) ∧
      ∀ f ∈ v.snaps, e.partner = some f.handle → f.partner = some e.handle → f.idle = e.idle) ∧
  ∀ h : Handle, ∀ r ∈ s.allot h, r.mark = true → ∃ v ∈ s.service, s.zoneOf r = some v.zone ∧
    ∃ e ∈ v.snaps, e.handle = h ∧ e.idle = r.idle ∧ e.peak = r.peak

theorem snapshot_of {s : State} (c : SnapshotCheck s) : s.SnapshotLaw :=
  ⟨fun v hv => (c.1 v hv).1, fun v e hv he => ((c.1 v hv).2.2 e he).1, fun v e f hv he hf => ((c.1 v hv).2.2 e he).2 f hf,
    fun v hv => (c.1 v hv).2.1, fun h r hr hm => c.2 h r hr hm⟩

theorem demo_records : demo.RecordLaws :=
  recordLaws_of (n := 16) (by decide +kernel) (by decide +kernel) (by decide +kernel) (by decide +kernel)
theorem demo_settings : SettingsCheck demo := by decide +kernel
theorem demo_queues : demo.QueueLaw := queues_of (by decide +kernel)
theorem demo_sleds : SledCheck demo := by decide +kernel
theorem demo_ranges : demo.RangeLaw := ranges_of (by decide +kernel)
theorem demo_snapshot : demo.SnapshotLaw := snapshot_of (by decide +kernel)

/-! ## Well-formed commands -/

theorem test_wellFormed_report_needs_one_to_four :
    (Instr.report 3 []).wellFormed = false ∧ (Instr.report 3 (List.replicate 1 ⟨0, false, 0⟩)).wellFormed = true ∧
      (Instr.report 3 (List.replicate 4 ⟨0, false, 0⟩)).wellFormed = true ∧
      (Instr.report 3 (List.replicate 5 ⟨0, false, 0⟩)).wellFormed = false := by decide +kernel

theorem test_wellFormed_ack_needs_one_to_four :
    (Instr.ack 3 []).wellFormed = false ∧ (Instr.ack 3 (List.replicate 4 ⟨0, 0⟩)).wellFormed = true ∧
      (Instr.ack 3 (List.replicate 5 ⟨0, 0⟩)).wellFormed = false := by decide +kernel

theorem test_wellFormed_refusedFrame_fails_a_check :
    (Instr.refusedFrame (withCheck [0x0E, 5])).wellFormed = false ∧
      (Instr.refusedFrame (withCheck [0x0E, 5, 6])).wellFormed = true := by decide +kernel

theorem test_wellFormed_discardedFrame_fails_a_test :
    (Instr.discardedFrame 26 (withCheck [0xDA, 0x01, 2])).wellFormed = false ∧
      (Instr.discardedFrame 27 (withCheck [0xDA, 0x01, 2])).wellFormed = true := by decide +kernel

theorem test_wellFormed_transactions_have_their_codes :
    (Instr.writeWhileBusy [0xA5]).wellFormed = true ∧ (Instr.writeWhileBusy [0x5A]).wellFormed = false ∧
      Instr.writeTransactionBegin.wellFormed = true ∧ (Instr.writeTransactionBegin [0x5A]).wellFormed = false ∧
      (Instr.readTransaction [0x5A]).wellFormed = true ∧ (Instr.readTransaction [0xA5]).wellFormed = false ∧
      (Instr.readTransaction []).wellFormed = false := by decide +kernel

/-! ## Frames (chapter 11) -/

/-- Section 11.2: sled 26. -/
theorem test_address_bytes : addressByte false 26 = 0x1A ∧ addressByte true 26 = 0xDA := by decide +kernel

/-- Section 11.4, the WELCOME of the example. -/
theorem test_welcome_bytes :
    (Frame.bytes ⟨26, .welcome 0, [⟨15, 9, 1, .grant 127 63⟩, ⟨16, 4, 2, .park⟩, ⟨22, 12, 12, .release⟩]⟩ 10).dropLast =
      [0x1A, 0x13, 0x0A, 0x00, 0x0F, 0x91, 0x01, 0x7F, 0x3F, 0x10, 0x42, 0x02, 0x16, 0xCC, 0x03] := by decide +kernel

/-- Section 11.4, the ACK of the example, on its own pair and on another. -/
theorem test_ack_decodes :
    decodeUplink 26 (withCheck [0xDA, 0x03, 0x0F, 0x09, 0x10, 0x04, 0x16, 0x0C]) =
        .ok (.ack 26 [⟨15, 9⟩, ⟨16, 4⟩, ⟨22, 12⟩]) ∧
      decodeUplink 25 (withCheck [0xDA, 0x03, 0x0F, 0x09]) = .error .sledNumber := by decide +kernel

theorem test_report_and_join_decode :
    decodeUplink 26 (withCheck [0xDA, 0x02, 200, 0x01, 150, 7, 0xFE, 0xFF]) =
        .ok (.report 26 [⟨200, true, 150⟩, ⟨7, false, 0xFF⟩]) ∧
      decodeUplink 26 (withCheck [0xDA, 0x01, 0x04]) = .ok (.join 26 4) := by decide +kernel

/-- R132: the tests in their order, each by a frame that fails it and the later ones. -/
theorem test_uplink_tests_in_order :
    decodeUplink 26 [0x5A, 0x09, 0x00] = .error .parity ∧ decodeUplink 26 [0x1A, 0x09, 0x00] = .error .direction ∧
      decodeUplink 25 [0xDA, 0x09, 0x00] = .error .sledNumber ∧ decodeUplink 26 [0xDA, 0x09, 0x00] = .error .check ∧
      decodeUplink 26 (withCheck [0xDA, 0x09]) = .error .malformed ∧
      decodeUplink 26 (withCheck [0xDA, 0x03, 0x05, 0x10]) = .error .malformed := by decide +kernel

/-- Section 11.5: quantities of two bytes, the high one first. -/
theorem test_command_frames_decode :
    decodeFrame (withCheck [0x01, 2, 0x01, 0x90, 0x02, 0x58, 0x01, 0x2C, 16, 4]) = .ok (.setZone 2 400 600 300 16 4) ∧
      decodeFrame (withCheck [0x06, 34, 9, 0x01, 0x00, 0x28, 0x00, 0xC8, 0x00, 0x50, 0x00, 0xB4, 4, 1]) =
        .ok (.install 34 9 1 40 200 80 180 4 1) ∧
      decodeFrame (withCheck [0x11]) = .ok .takeAttention ∧ decodeFrame (withCheck [0x0B, 1, 12]) = .ok (.park 1 12) := by
  decide +kernel

/-- R182: the frame checks in their order. -/
theorem test_frame_checks_in_order :
    decodeFrame [] = .error .badLength ∧ decodeFrame [0x15] = .error .badLength ∧
      decodeFrame [0x15, 0x00] = .error .badCheck ∧ decodeFrame (withCheck [0x15, 1, 2]) = .error .badCommand ∧
      decodeFrame (withCheck [0x0E, 1, 2]) = .error .badLength := by decide +kernel

/-! ## Arithmetic -/

/-- Section 4.1, the windows of Case 1. -/
theorem test_windows :
    [windowFor 40 200 180, windowFor 40 200 148, windowFor 30 150 70, windowFor 50 250 202, windowFor 40 200 80,
      windowFor 40 200 40, windowFor 40 200 200] = [223, 172, 85, 193, 63, 1, 255] := by decide +kernel

/-- Section 5.2: R90's example and the report of sled 21. -/
theorem test_demands :
    activityDemand 40 200 200 = 166 ∧ activityDemand 60 300 138 = 190 ∧ deferredDemand 16 20 120 20 = 36 ∧
      deferredDemand 16 60 300 150 = 180 ∧ deferredDemand 16 20 120 110 = 120 := by decide +kernel

/-- Section 5.3, the day of sled 13. -/
theorem test_thermal_day :
    let next := Assessor.powerOn.evaluate
    [next 150 .normal, next 165 .normal, next 178 .warm, next 192 .hot, next 185 .critical, next 179 .critical,
      next 150 .hot, next 175 .hot] =
      [.normal, .warm, .hot, .critical, .critical, .hot, .normal, .hot] := by decide +kernel

/-- A record of the snapshots of section 3.13. -/
def snap (h : Handle) (idle peak floor ceiling weight demand : Nat) (eff : Thermal) : Snap :=
  { handle := h, tag := .live, idle, peak, floor, ceiling, weight, partner := none, demand := some demand
    grant := .settled, eff }

/-- Zone 2 of section 3.13 with the budget `b`. -/
def caseOne (b : Nat) : Service :=
  { zone := 2, budget := b, warmDerate := 75, hotDerate := 50
    snaps := [snap 3 40 200 80 180 4 190 .normal, snap 7 40 200 80 200 2 200 .warm, snap 9 30 150 60 150 1 70 .normal,
      snap 12 50 250 100 250 3 240 .normal] }

/-- Section 3.13, Cases 1 and 2. -/
theorem test_targets_of_cases_one_and_two :
    (caseOne 600).targets.map (·.2) = [180, 148, 70, 202] ∧ (caseOne 600).isShort = false ∧
      (caseOne 300).targets.map (·.2) = [75, 75, 56, 93] ∧ (caseOne 300).isShort = true ∧
      (caseOne 150).targets.map (·.2) = [40, 40, 30, 50] := by decide +kernel

/-- Section 3.13, Case 3: the remainder pass. -/
theorem test_targets_of_case_three :
    ({ caseOne 406 with
        snaps := [snap 2 30 300 100 200 4 101 .normal, snap 5 30 300 100 200 2 101 .normal,
          snap 10 20 500 200 400 1 205 .normal] } : Service).targets.map (·.2) = [101, 101, 201] := by decide +kernel

/-- Zone 6 of section 3.13: a pair, one member in the given thermal state. -/
def caseFour (eff : Thermal) : Service :=
  { caseOne 1000 with
    snaps := [{ snap 20 40 240 80 240 3 230 .normal with partner := some 33 }, snap 25 40 320 60 300 2 300 .normal,
      { snap 33 40 240 80 240 3 220 eff with partner := some 20 }] }

/-- Section 3.13, Case 4: a pair with one WARM member, and with it CRITICAL. -/
theorem test_targets_of_case_four :
    (caseFour .warm).targets.map (·.2) = [180, 300, 180] ∧ (caseFour .critical).targets.map (·.2) = [40, 300, 40] := by
  decide +kernel

/-- Section 3.3, the walk through the service table: the zone taken and the pointer after it. -/
theorem test_service_walk :
    let asking (p : Fin 16) (zs : List ZoneNo) : State :=
      { State.reset with
        table := #v[2, 0, 2, 1, 2, 3, 2, 4, 2, 5, 2, 6, 2, 7, 2, 0], pointer := p
        zones := zs.foldl (fun l (z : ZoneNo) => l.set z { Zone.powerOn with normalReq := true }) State.reset.zones }
    (asking 15 [1, 2, 5]).chooseZone = some (2, 0) ∧ (asking 0 [1, 2, 5]).chooseZone = some (2, 2) ∧
      (asking 2 [1, 5]).chooseZone = some (1, 3) ∧ (asking 3 [5]).chooseZone = some (5, 9) ∧
      (asking 9 []).chooseZone = none := by decide +kernel

/-! ## Single steps -/

/-- R187, R172, R30: what reset leaves. -/
theorem test_reset_outputs :
    State.reset.readyPin = true ∧ State.reset.attentionPin = true ∧ State.reset.attention.device = true ∧
      (State.reset.zone 0).cb = 0 ∧ (State.reset.zone 7).ramp = 16 ∧ (State.reset.station 5).interval = 10 ∧
      State.reset.stack.head? = some 0 := by decide +kernel

/-- The front command: the acknowledgement settles handle 1 at 100, and the step 2R below the knee follows. -/
theorem test_ack_raises_by_two_ramps :
    ((after (.ack 3 [⟨1, 5⟩]) demo).allot 1).map (fun r => [r.acked, r.sent, r.exposure, r.sequence.toNat]) =
      some [100, 132, 132, 6] ∧ ((after (.ack 3 [⟨1, 5⟩]) demo).zone 1).x = 1092 := by decide +kernel

/-- R172, R191: the bytes after the WRITE code, so far and at the take, the 41st counted and not stored; a READ of one byte,
whatever stands on MDI; and a transaction of neither code, ignored. -/
theorem test_transaction_judged_by_first_byte :
    let t := after (.readTransaction [0xA5, 0x0E, 5]) State.reset
    let u := after (.writeTransactionBegin (0xA5 :: List.replicate 41 0)) State.reset
    let v := after (.writeTransactionBegin [0xA5, 0x0E]) State.reset
    (v.port.state, v.port.command, v.port.received, v.port.crc, v.port.latest) = (.taking, [0x0E], 1, 0xFF, some 0x0E) ∧
      (t.port.state, t.port.command, t.port.received, t.port.crc, t.port.latest) =
          (.responding, [0x0E, 5], 2, crc8 [0x0E], some 5) ∧
      (u.port.command.length, u.port.received) = (40, 41) ∧
      (after (.readTransaction [0x5A, 0xA5]) State.reset).mdo = [0x00] ∧
      exec (.readTransaction [0xA4, 0]) State.reset = .next State.reset :=
  ⟨by decide +kernel, by decide +kernel, by decide +kernel, by decide +kernel, rfl⟩

/-- R68, R73: a lowered ceiling of a pair lowers both targets before the raise: 100 + 16 would pass 110. -/
theorem test_amend_keeps_raises_of_pair_within_ceiling :
    ([2, 3] : List Handle).map (fun h => ((after (.amend 2 2 0 110 0 0) demo).allot h).map (fun r => (r.target, r.sent))) =
      [some (110, 110), some (110, 110)] := by decide +kernel

/-- A pair that names an older sequence is ignored (R76). -/
theorem test_ack_of_an_old_sequence_is_ignored :
    ((after (.ack 3 [⟨1, 4⟩]) demo).allot 1) = demo.allot 1 := by decide +kernel

/-- Section 1.5: a freed handle is the next one given. -/
theorem test_retire_pushes_handle :
    (after (.retire 7) demo).stack.head? = some 7 ∧ ((after (.retire 7) demo).allot 7).isNone ∧
      ((after (.retire 7) demo).zone 1).floorSum = 960 := by decide +kernel

/-- An INSTALL whose floor finds room for 60 only is adjusted to it (R9). -/
theorem test_install_takes_room :
    ((after (.install 9 13 2 40 200 80 180 4 0) demo).allot 16).map (fun r => [r.floor, r.target, r.exposure]) =
      some [60, 40, 40] ∧ ((after (.install 9 13 2 40 200 80 180 4 0) demo).zone 1).x = 1100 := by decide +kernel

/-- A report of the deferred flag wakes a PARKED record of its channel (R94); its grant starts from idle. -/
theorem test_report_wakes_parked_record :
    ((after (.report 12 [⟨0, false, 0⟩, ⟨0, false, 0⟩, ⟨0, true, 0⟩, ⟨0, false, 0⟩]) demo).allot 9).map
      (fun r => (r.grant, r.acked, r.sent)) = some (.changing, 40, 72) := by decide +kernel

/-- R121 and R122: the fourth restatement of handle 12 sends sled 7 LOST, and sled 5 counts. -/
theorem test_refresh_event_loses_sled :
    let t := after (.refreshEvent 0) demo
    (t.sled 7).link = .lost ∧ (t.sled 5).fallbacks = 4 ∧ (t.sled 3).silence = 1 ∧ t.attention.sleds[7].lost = true ∧
      (t.station 0).interval = 10 := by decide +kernel

/-- R98 to R102: a CRITICAL own state reaches the chain one below at each hop. -/
theorem test_critical_report_reaches_chain :
    let t := after (.report 3 [⟨0, false, 190⟩, ⟨0, false, 100⟩]) demo
    [(t.sled 3).eff, (t.sled 4).eff, (t.sled 12).eff] = [.critical, .hot, .warm] ∧
      t.attention.sleds[3].critical = true ∧ (t.allot 0).map (·.target) = some 40 := by decide +kernel

/-- R150: a SETTLED record of a LINKED sled goes to PARKING, and X stands. -/
theorem test_park_places_park :
    ((after (.park 0 0) demo).allot 0).map (fun r => (r.grant, r.latest, r.sequence)) = some (.parking, .park, 6) ∧
      ((after (.park 0 0) demo).zone 1).x = 1060 := by decide +kernel

/-- R181: the refusal of a SET_STATION of station 6 in the last refused record and in the flags. -/
theorem test_refusal_is_recorded :
    (after (.setStation 6 10) demo).port.lastRefused = some ⟨0x03, some 6, .badNumber⟩ ∧
      (after (.setStation 6 10) demo).port.flags.format = true := by decide +kernel

/-! ## Witnesses: states and operands that meet the hypotheses of each statement -/

/-- `demo` after its front command. -/
def stepped : State := after (.ack 3 [⟨1, 5⟩]) { demo with pending := [] }

theorem demo_steps : step demo = .next stepped :=
  exists_next (c := .ack 3 [⟨1, 5⟩]) (s := { demo with pending := [] }) (by decide +kernel)

theorem demo_accepting : demo.Accepting := by unfold State.Accepting; decide +kernel
theorem reset_accepting : State.reset.Accepting := by unfold State.Accepting; decide +kernel

/-- `demo` with every class refused. -/
def refusing : State := { demo with port := { Port.powerOn with masks := ⟨false, false, false⟩ } }

theorem refusing_accepting : refusing.Accepting := by unfold State.Accepting; decide +kernel

theorem refusing_records : refusing.RecordLaws :=
  have h := demo_records
  { table := ⟨h.table.1, h.table.2, h.table.3, h.table.4, h.table.5⟩
    contracts := h.contracts, pairs := h.pairs, masks := ⟨h.masks.1, h.masks.2⟩, flight := h.flight
    standing := h.standing, sums := ⟨h.sums.1, h.sums.2, h.sums.3, h.sums.4⟩ }

theorem demo_quiet : demo.QuietLaw := by unfold State.QuietLaw; decide +kernel

theorem test_witness_AttentionOutputFollowsItems : demo.AttentionLaw ∧ step demo = .next stepped :=
  ⟨by unfold State.AttentionLaw; decide +kernel, demo_steps⟩

theorem test_witness_ReadyOutputFollowsPort :
    demo.ReadyLaw ∧ demo.BuildingLaw ∧ demo.HeldLaw ∧ step demo = .next stepped :=
  ⟨by unfold State.ReadyLaw; decide +kernel, by unfold State.BuildingLaw; decide +kernel,
    by unfold State.HeldLaw; decide +kernel, demo_steps⟩

theorem test_witness_HandleTableKept : demo.TableLaw ∧ step demo = .next stepped := ⟨demo_records.table, demo_steps⟩

theorem test_witness_ContractsPairsMasksKept :
    demo.TableLaw ∧ demo.ContractLaw ∧ demo.PairLaw ∧ demo.MaskLaw ∧ step demo = .next stepped :=
  ⟨demo_records.table, demo_records.contracts, demo_records.pairs, demo_records.masks, demo_steps⟩

theorem test_witness_ZoneSumsKept :
    demo.TableLaw ∧ demo.ContractLaw ∧ demo.PairLaw ∧ demo.SumLaw ∧ step demo = .next stepped :=
  ⟨demo_records.table, demo_records.contracts, demo_records.pairs, demo_records.sums, demo_steps⟩

theorem test_witness_FlightValuesCounted :
    demo.TableLaw ∧ demo.PairLaw ∧ demo.FlightLaw ∧ demo.StandingLaw ∧ step demo = .next stepped :=
  ⟨demo_records.table, demo_records.pairs, demo_records.flight, demo_records.standing, demo_steps⟩

theorem test_witness_DownlinkQueuesKept :
    demo.TableLaw ∧ demo.LinkLaw ∧ demo.QueueLaw ∧ step demo = .next stepped :=
  ⟨demo_records.table, links_of demo_sleds, demo_queues, demo_steps⟩

theorem test_witness_FreeApportionerLeavesNoRequest : demo.QuietLaw ∧ step demo = .next stepped := ⟨demo_quiet, demo_steps⟩

theorem test_witness_RuntimeFieldsStayInRange :
    demo.TableLaw ∧ demo.ContractLaw ∧ demo.PairLaw ∧ demo.SettingsLaw ∧ demo.StandingLaw ∧ demo.RangeLaw ∧
      demo.SnapshotLaw ∧ step demo = .next stepped :=
  ⟨demo_records.table, demo_records.contracts, demo_records.pairs, settings_of demo_settings, demo_records.standing,
    demo_ranges, demo_snapshot, demo_steps⟩

theorem test_witness_BudgetsAndSettingsKept : demo.BudgetLaw ∧ demo.SettingsLaw ∧ step demo = .next stepped :=
  ⟨budgets_of demo_settings, settings_of demo_settings, demo_steps⟩

theorem test_witness_LinkCountersKept : demo.LinkLaw ∧ step demo = .next stepped := ⟨links_of demo_sleds, demo_steps⟩

theorem test_witness_UpstreamChainsKept : demo.ChainLaw ∧ step demo = .next stepped := ⟨chains_of demo_sleds, demo_steps⟩

theorem test_witness_EffectiveStatesKept : demo.ChainLaw ∧ demo.EffectiveLaw ∧ step demo = .next stepped :=
  ⟨chains_of demo_sleds, effective_of demo_sleds, demo_steps⟩

theorem test_witness_RaisesStayWithinBudget :
    (Instr.ack 3 [⟨1, 5⟩]).wellFormed = true ∧ demo.RecordLaws ∧ demo.RangeLaw ∧ demo.SettingsLaw ∧ demo.SnapshotLaw ∧
      (∀ a b m i p f k w x, Instr.ack 3 [⟨1, 5⟩] ≠ .install a b m i p f k w x) ∧
      exec (.ack 3 [⟨1, 5⟩]) demo = .next (after (.ack 3 [⟨1, 5⟩]) demo) ∧
      (demo.zone 1).x < ((after (.ack 3 [⟨1, 5⟩]) demo).zone 1).x ∧
      ∃ r ∈ demo.allot 1, ∃ u ∈ (after (.ack 3 [⟨1, 5⟩]) demo).allot 1, demo.zoneOf r = some 1 ∧
        r.exposure < u.exposure ∧ u.sequence ≠ r.sequence ∧ u.latest = .grant 146 63 80 :=
  ⟨by decide, demo_records, demo_ranges, settings_of demo_settings, demo_snapshot, by intros; simp,
    exists_next (by decide +kernel), by decide +kernel, by decide +kernel⟩

/-- A triple of a REPORT. -/
def triple : Triple := ⟨200, false, 150⟩

theorem test_witness_UplinkFramesDecodeBack :
    (encodeUplink (.join 26 4)).isSome ∧ (encodeUplink (.report 26 [triple])).isSome ∧
      (encodeUplink (.report 26 [triple, triple, triple, triple])).isSome ∧
      (encodeUplink (.ack 26 [⟨15, 9⟩])).isSome ∧
      (encodeUplink (.ack 26 [⟨15, 9⟩, ⟨16, 4⟩, ⟨22, 12⟩, ⟨23, 15⟩])).isSome ∧ (25 : SledNo) ≠ 26 := by decide

theorem test_witness_CorruptedFrameIsBadCheck :
    let bytes := withCheck [0x0E, 5]
    encodeFrame (.lookup 5) = some bytes ∧ (0 < bytes.length ∧ bytes[0]? ≠ some 0x0F) ∧
      (2 < bytes.length ∧ bytes[2]? ≠ some 0x00) := by decide +kernel

theorem test_witness_RefusedFramesAnsweredInOrder :
    State.reset.Accepting ∧ ([] : List Byte).length < 2 ∧ [(0x0E : Byte)].length < 2 ∧
      [(0x0E : Byte), 0x00].getLast? ≠ some (crc8 [0x0E]) ∧
      (∀ code ∈ [(0x00 : Byte), 0x15, 0x01, 0x14],
        (withCheck [code]).getLast? = some (crc8 (withCheck [code]).dropLast) ∧ 2 ≤ (withCheck [code]).length) ∧
      (0x14 < (0x15 : Byte).toNat ∧ (0x00 : Byte).toNat = 0) ∧
      11 ≠ (withCheck [(0x01 : Byte)]).length ∧ 2 ≠ (withCheck [(0x14 : Byte), 0x00]).length :=
  ⟨reset_accepting, by decide +kernel⟩

/-- A frame for each test, and one that passes them all: the address bytes of sled 26 and the kinds with their lengths. -/
theorem test_witness_DiscardedFrameChangesNothing :
    decodeUplink 26 [] = .error .malformed ∧ decodeUplink 25 (withCheck [0xDA, 0x01, 2]) = .error .sledNumber ∧
      ((List.range 8).filter fun i => (0x5A : Byte).getLsbD i).length % 2 = 0 ∧ (0x1A : Byte).getLsbD 6 = false ∧
      (0xDA : Byte).toNat % 64 ≠ (25 : SledNo).val ∧ [(0xDA : Byte), 0x09, 0].getLast? ≠ some (crc8 [0xDA, 0x09]) ∧
      (withCheck [(0xDA : Byte)]).length < 3 ∧ 15 < (withCheck (0xDA :: 0x02 :: List.replicate 15 0)).length ∧
      numberAt [0xDA, 0x00, 0] 1 1 = 0 ∧ 3 < numberAt [0xDA, 0x04, 0] 1 1 ∧
      (numberAt (withCheck [0xDA, 0x01]) 1 1 = 1 ∧ (withCheck [0xDA, 0x01]).length ≠ 4) ∧
      (numberAt (withCheck [0xDA, 0x02, 1]) 1 1 = 2 ∧ (withCheck [0xDA, 0x02, 1]).length ∉ [6, 9, 12, 15]) ∧
      (numberAt (withCheck [0xDA, 0x03, 1]) 1 1 = 3 ∧ (withCheck [0xDA, 0x03, 1]).length ∉ [5, 7, 9, 11]) ∧
      (let b := withCheck [0xDA, 0x03, 1, 16]
       2 * 0 + 4 < b.length ∧ 15 < numberAt b (2 * 0 + 3) 1) ∧
      let b := withCheck [0xDA, 0x03, 1, 15, 2, 15, 3, 15, 4, 15]
      (((List.range 8).filter fun i => (b.headD 0).getLsbD i).length % 2 ≠ 0 ∧ (b.headD 0).getLsbD 6 = true ∧
        (b.headD 0).toNat % 64 = (26 : SledNo).val ∧ b.getLast? = some (crc8 b.dropLast)) ∧
        (numberAt b 1 1 = 3 ∧ b.length = 11) ∧ ∀ i < 4, numberAt b (2 * i + 3) 1 = 15 := by decide +kernel

/-- The machine with a response in building. -/
def responding : State := after (.readZone 1) State.reset

theorem test_witness_WriteTransactionsByPortState :
    (State.reset.resetHeld = false ∧ State.reset.port.state = .idle) ∧ responding.resetHeld = false ∧
      responding.port.state = .responding ∧
      (let s := after .writeTransactionBegin State.reset
       s.resetHeld = false ∧ s.port.state = .taking) ∧
      ([0x11] : List Byte).head? ≠ some 0xA5 ∧ ([] : List Byte).head? ≠ some 0x5A ∧ encodeFrame (.lookup 5) = some (withCheck [0x0E, 5]) := by decide +kernel

theorem test_witness_ResponseReadyDelivers :
    ∃ r, responding.resetHeld = false ∧ responding.port.state = .responding ∧ responding.port.building = some r := by
  have h : responding.port.building.isSome = true := by decide +kernel
  obtain ⟨r, hr⟩ := Option.isSome_iff_exists.mp h
  exact ⟨r, by decide +kernel, by decide +kernel, hr⟩

theorem test_witness_ReadTransactionShiftsResponse :
    State.reset.resetHeld = false ∧ State.reset.port.state ≠ .responding ∧
      State.reset.port.response = some Response.startUp ∧ responding.resetHeld = false ∧
      responding.port.state = .responding := ⟨rfl, by decide +kernel, rfl, by decide +kernel, by decide +kernel⟩

/-- The machine with an unread response. -/
def unread : State := after .responseReady responding

theorem test_witness_TakeFixesResponse :
    commandCode (.lookup 5) = some 0x0E ∧ encodeFrame (.lookup 5) = some (withCheck [0x0E, 5]) ∧ unread.Accepting ∧
      Instr.lookup 5 ≠ .restart ∧ (∀ b, Instr.lookup 5 ≠ .readFaults b) ∧ unread.losesResponse = true ∧
      State.reset.Accepting ∧ State.reset.losesResponse = false :=
  ⟨rfl, rfl, by unfold State.Accepting; decide +kernel, by decide, by intros; simp, by decide +kernel, reset_accepting,
    by decide +kernel⟩

theorem test_witness_RefusalLeavesEverythingElse :
    let c := Instr.setStation 6 10
    commandCode c = some 0x03 ∧ demo.Accepting ∧ exec c demo = .next (after c demo) ∧
      (after c demo).port.building = some ⟨0x03, .refused .badNumber, []⟩ :=
  ⟨rfl, demo_accepting, exists_next (by decide +kernel), by decide +kernel⟩

theorem test_witness_NumbersAndHandlesJudgedFirst :
    demo.Accepting ∧ demo.allot 159 = none ∧ (∃ r ∈ demo.allot 6, r.tag = .retiring) ∧ (demo.allot 0).isSome ∧
      160 ≤ (160 : Byte).toNat ∧ 48 ≤ (48 : Byte).toNat ∧ 8 ≤ (8 : Byte).toNat ∧ 6 ≤ (6 : Byte).toNat ∧
      2 ≤ (2 : Byte).toNat ∧ (15 : Byte).toNat < 16 ∧ 16 ≤ (16 : Byte).toNat ∧ (8 : Byte).getLsbD 3 = true :=
  ⟨demo_accepting, by decide +kernel⟩

theorem test_witness_ReadCommandsReturnImages : demo.Accepting ∧ ∃ r, demo.allot 0 = some r := ⟨demo_accepting, _, rfl⟩

/-- The machine with the given items pending, sled items 0 and 47, and station 0 masked. -/
def withItems (device curtail : Bool) (low high : Bool) : State :=
  { State.reset with
    attention :=
      { AttentionUnit.powerOn with
        device, zones := (Vector.replicate 8 ZoneItem.empty).set 7 ⟨false, curtail⟩
        sleds := ((Vector.replicate 48 SledItem.empty).set 0 { SledItem.empty with lost := low }).set 47
          { SledItem.empty with refused := high }
        masks := (Vector.replicate 6 false).set 0 true } }

theorem test_witness_TakeAttentionReturnsFirstItem :
    (withItems true true true true).attention.device = true ∧
      (let a := (withItems false true true true).attention
       a.device = false ∧ a.zones[(7 : ZoneNo)].isPending = true ∧ ∀ y < (7 : ZoneNo), a.zones[y].isPending = false) ∧
      (let a := (withItems false false true true).attention
       a.device = false ∧ (∀ z : ZoneNo, a.zones[z].isPending = false) ∧ a.sleds[(47 : SledNo)].isPending = true ∧
         a.masked 47 = false ∧ ∀ e < (47 : SledNo), a.sleds[e].isPending = false ∨ a.masked e = true) ∧
      (let a := (withItems false false true false).attention
       a.device = false ∧ (∀ z : ZoneNo, a.zones[z].isPending = false) ∧
         ∀ d : SledNo, a.sleds[d].isPending = false ∨ a.masked d = true) ∧
      ∀ d z l h : Bool, (withItems d z l h).resetHeld = false ∧ (withItems d z l h).port.state ≠ .responding := by
  decide +kernel

theorem test_witness_SetMasksReplacesNineValues :
    demo.Accepting ∧ ((1 : Byte).toNat ≤ 1 ∧ (63 : Byte).toNat < 64) ∧ ¬(2 : Byte).toNat ≤ 1 ∧ ¬(64 : Byte).toNat < 64 :=
  ⟨demo_accepting, by decide⟩

/-- No refused record, one with a parameter and the last detail of the first class, and one of the last class. -/
theorem test_witness_ReadFaultsReturnsAndClears :
    demo.Accepting ∧ demo.port.lastRefused = none ∧ 2 ≤ (2 : Byte).toNat ∧
      (let s := after .responseReady (after (.setStation 6 10) demo)
       s.Accepting ∧ s.port.lastRefused = some ⟨0x03, some 6, .badNumber⟩) ∧
      (let s := after .responseReady (after (.setZone 1 1039 1200 300 16 4) refusing)
       s.Accepting ∧ s.port.lastRefused = some ⟨0x01, some 1, .belowFloors⟩) :=
  ⟨demo_accepting, by decide +kernel, by decide, by unfold State.Accepting; decide +kernel,
    by unfold State.Accepting; decide +kernel⟩

theorem test_witness_SetZoneWritesSettings :
    (demo.Accepting ∧ demo.port.masks.range = true ∧ demo.port.masks.contract = true) ∧ refusing.Accepting ∧
      refusing.port.masks.range = false ∧
      ¬(16383 < (16383 : Half).toNat ∨ 16383 < (1200 : Half).toNat ∨ 16383 < (0 : Half).toNat ∨ (1 : Byte).toNat = 0) ∧
      (refusing.zone 1).floorSum ≤ min (1040 : Half).toNat 16383 ∧
      ¬((refusing.zone 1).floorSum ≤ min (1039 : Half).toNat 16383 ∨ refusing.port.masks.contract = true) ∧
      16383 < (16384 : Half).toNat ∧ (0 : Byte).toNat = 0 ∧
      demo.PairLaw ∧ (demo.zone 1).budget < ((after (.setZone 1 1100 2000 300 16 4) demo).zone 1).budget ∧
      ((after (.setZone 1 1100 1200 300 16 4) demo).zone 1).budget = (demo.zone 1).budget ∧
      (∃ r ∈ demo.allot 11, demo.zoneOf r ≠ some 1) ∧
      (∃ r ∈ demo.allot 0, demo.zoneOf r = some 1 ∧ r.grant = .settled ∧ r.partner = none) ∧
      ∃ r ∈ demo.allot 12, demo.zoneOf r = some 1 ∧ r.grant = .changing :=
  ⟨⟨demo_accepting, by decide +kernel⟩, refusing_accepting, by decide +kernel, by decide +kernel, by decide +kernel,
    by decide +kernel, by decide +kernel, by decide +kernel, demo_records.pairs, by decide +kernel⟩

theorem test_witness_SetThermalReplacesThresholds :
    demo.Accepting ∧ demo.port.masks.range = true ∧ refusing.Accepting ∧ refusing.port.masks.range = false ∧
      (255 : Byte).toNat = 255 ∧ (254 : Byte).toNat ≠ 255 ∧ 100 < (101 : Byte).toNat ∧ ¬100 < (100 : Byte).toNat ∧
      Assessor.powerOn.Legal ∧ ¬{ Assessor.powerOn with warmOn := 152 }.Legal ∧
      demo.assessor.warmDerate = 75 ∧ { Assessor.powerOn with hotDerate := 100 }.Legal :=
  ⟨demo_accepting, by decide +kernel, refusing_accepting, by decide +kernel, by decide, by decide, by decide, by decide,
    legal_powerOn, by unfold Assessor.Legal; decide, by decide +kernel, by unfold Assessor.Legal; decide⟩

theorem test_witness_SetStationSetsPendingInterval :
    demo.Accepting ∧ 6 ≤ (6 : Byte).toNat ∧ (5 : Byte) = byteOf (5 : StationNo).val ∧
      (refusing.Accepting ∧ (1 : Byte).toNat < 2 ∧ refusing.port.masks.range = false) ∧
      ¬((1 : Byte).toNat < 2 ∧ demo.port.masks.range = false) ∧
      ¬((2 : Byte).toNat < 2 ∧ refusing.port.masks.range = false) ∧
      max 2 (10 : Byte).toNat = (demo.station 5).interval :=
  ⟨demo_accepting, by decide, by decide, ⟨refusing_accepting, by decide +kernel⟩, by decide +kernel⟩

theorem test_witness_SetServiceReplacesTable :
    demo.Accepting ∧ (∀ p : Fin 16, (Vector.replicate 16 (7 : Byte))[p].toNat < 8) ∧
      ∃ p : Fin 16, 8 ≤ ((Vector.replicate 16 (7 : Byte)).set 15 8)[p].toNat := ⟨demo_accepting, by decide +kernel⟩

theorem test_witness_PlaceSledPlacesMovesUnplaces :
    demo.Accepting ∧ demo.ChainLaw ∧ demo.QuietLaw ∧ demo.EffectiveLaw ∧ demo.port.masks.range = true ∧
      -- places sled 20 below sled 12, at the depth of 3 hops
      ((12 : SledNo) ≠ 20 ∧ (demo.sled 12).placement.isSome ∧ (20 : SledNo) ∉ demo.upstreams 48 12 ∧
        demo.hopsUp 12 + 1 + demo.hopsDown 20 = 3 ∧ (demo.sled 20).placement = none) ∧
      -- moves sled 16, which has no allotment, to another zone, and sled 3, which has some, within its own
      ((demo.sled 16).placement = some ⟨1, 1, some 15⟩ ∧ (demo.sled 16).handles = [] ∧
        0 + demo.hopsDown 16 ≤ 3 ∧ (demo.sled 3).placement = some ⟨1, 2, none⟩ ∧ demo.hopsDown 3 ≤ 3) ∧
      -- unplaces sled 16, and sled 20 that is UNPLACED
      (∀ e : SledNo, demo.upstreamOf e ≠ some 16 ∧ demo.upstreamOf e ≠ some 20) :=
  ⟨demo_accepting, chains_of demo_sleds, demo_quiet, effective_of demo_sleds, by decide +kernel⟩

theorem test_witness_PlaceSledRefusalsInOrder :
    demo.Accepting ∧ refusing.Accepting ∧ (8 ≤ (8 : Byte).toNat ∧ (254 : Byte).toNat < 255 ∧ 48 ≤ (48 : Byte).toNat) ∧
      ¬(refusing.port.masks.range = true ∨ 1 ≤ (5 : Byte).toNat ∧ (5 : Byte).toNat ≤ 4) ∧ demo.port.masks.range = true ∧
      -- HAS_ALLOTMENTS: sled 3 to zone 2
      (demo.sled 3).placement = some ⟨1, 2, none⟩ ∧ (demo.sled 3).handles ≠ [] ∧
      -- UPSTREAM_UNPLACED, CYCLE, TOO_DEEP
      (demo.sled 20).placement = none ∧ ((demo.sled 4).placement.isSome ∧ (3 : SledNo) ∈ demo.upstreams 48 4) ∧
      ((demo.sled 12).placement.isSome ∧ (15 : SledNo) ∉ demo.upstreams 48 12 ∧
        3 < demo.hopsUp 12 + 1 + demo.hopsDown 15) ∧
      -- IS_UPSTREAM: sled 15 unplaced
      ((demo.sled 15).handles = [] ∧ ∃ e : SledNo, demo.upstreamOf e = some 15) :=
  ⟨demo_accepting, refusing_accepting, by decide +kernel⟩

/-- The premises of INSTALL on an IDLE sled and on a SILENT one, with a floor that fits exactly and one that does not. -/
theorem test_witness_InstallWritesRecord :
    demo.Accepting ∧ demo.TableLaw ∧ demo.stack.head? = some 16 ∧
      ((demo.sled 13).placement = some ⟨1, 4, none⟩ ∧ demo.reachable 13 = false ∧
        ∀ j : Handle, ∀ q ∈ demo.allot j, q.sled = 13 → q.mask &&& 2 = 0) ∧
      ((demo.sled 8).placement = some ⟨1, 1, none⟩ ∧ demo.reachable 8 = true ∧
        ∀ j : Handle, ∀ q ∈ demo.allot j, q.sled = 8 → q.mask &&& 1 = 0) ∧
      ((2 : Byte).toNat < 16 ∧ (2 : Byte).setWidth 4 ≠ (0 : ChannelMask) ∧ (2 : ChannelMask).getLsbD 1 = true ∧ 1 < 4) ∧
      (40 < 200 ∧ (demo.zone 1).floorSum + 60 = (demo.zone 1).cb) ∧ demo.port.masks = ⟨true, true, true⟩ :=
  ⟨demo_accepting, demo_records.table, by decide +kernel⟩

/-- Every handle LIVE, four on each of 40 sleds. -/
def full : State :=
  { State.reset with
    allotments := tabulate fun h =>
      some (standing ⟨h.val / 4, by omega⟩ ((1 : ChannelMask) <<< (h.val % 4)) .unlinked 40 40)
    stack := []
    sleds := tabulate fun d =>
      if hd : d.val < 40 then
        placed 1 4 none .idle
          [⟨4 * d.val, by omega⟩, ⟨4 * d.val + 1, by omega⟩, ⟨4 * d.val + 2, by omega⟩, ⟨4 * d.val + 3, by omega⟩]
      else Sled.powerOn }

theorem full_table : full.TableLaw := tableLaw_of (n := 160) (by decide +kernel)

theorem test_witness_InstallRefusalsInOrder :
    (demo.Accepting ∧ demo.TableLaw ∧ (demo.sled 20).placement = none) ∧
      (full.Accepting ∧ full.TableLaw ∧ (full.sled 0).placement.isSome ∧ full.stack = []) ∧
      (refusing.Accepting ∧ refusing.TableLaw ∧ refusing.stack ≠ [] ∧
        (refusing.sled 13).placement = some ⟨1, 4, none⟩ ∧ (∃ r ∈ refusing.allot 13, r.sled = 13 ∧ r.mask &&& 1 ≠ 0) ∧
        (refusing.sled 8).placement = some ⟨1, 1, none⟩ ∧ (2 : ChannelMask).getLsbD 1 = true ∧
        (∀ j : Handle, ∀ q ∈ refusing.allot j, q.sled = 13 → q.mask &&& 2 = 0) ∧
        refusing.port.masks = ⟨false, false, false⟩ ∧ (refusing.zone 1).cb < (refusing.zone 1).floorSum + 61) ∧
      (demo.port.masks = ⟨true, true, true⟩ ∧ demo.zone 1 = refusing.zone 1) ∧
      1022 < (1023 : Half).toNat ∧ ¬1022 < (1022 : Half).toNat ∧ 1023 < (1024 : Half).toNat ∧ 15 < (16 : Byte).toNat :=
  ⟨⟨demo_accepting, demo_records.table, by decide +kernel⟩,
    ⟨by unfold State.Accepting; decide +kernel, full_table, by decide +kernel⟩,
    ⟨refusing_accepting, refusing_records.table, by decide +kernel⟩, by decide +kernel⟩

/-- An unpaired, a paired and a PARK_PENDING record, with every class adjusted and with every class refused. -/
theorem test_witness_AmendWritesContract :
    demo.Accepting ∧ demo.RecordLaws ∧ refusing.Accepting ∧ refusing.RecordLaws ∧ demo.port.masks = ⟨true, true, true⟩ ∧
      (∃ r ∈ demo.allot 0, r.tag = .live ∧ demo.zoneOf r = some 1 ∧ r.partner = none ∧ demo.mayPlace r = true) ∧
      (∃ r ∈ demo.allot 2, r.tag = .live ∧ demo.zoneOf r = some 1 ∧ r.partner = some 3) ∧
      (∃ q ∈ demo.allot 3, ∃ u ∈ (after (.amend 2 2 0 90 0 0) demo).allot 3, demo.mayPlace q = true ∧ q.grant = .held ∧
        u.target < q.sent) ∧
      (∃ r ∈ demo.allot 10, r.tag = .live ∧ demo.zoneOf r = some 1 ∧ r.grant = .parkPending ∧ demo.mayPlace r = true) ∧
      (∃ r ∈ refusing.allot 0, r.tag = .live ∧ refusing.zoneOf r = some 1 ∧ r.floor = 80 ∧ r.ceiling = 180) ∧
      (0 : Byte).toNat < 16 ∧ (15 : Byte).toNat < 16 ∧ (1 : Byte).toNat ≤ 1 :=
  ⟨demo_accepting, demo_records, refusing_accepting, refusing_records, by decide +kernel⟩

theorem test_witness_AmendTenantWritesCeilings :
    demo.Accepting ∧ demo.RecordLaws ∧ refusing.Accepting ∧ refusing.RecordLaws ∧
      ((0 : Byte).toNat = 0 ∧ 100 < (101 : Byte).toNat ∧ refusing.port.masks.range = false) ∧
      (demo.port.masks.range = true ∧ ¬((100 : Byte).toNat = 0 ∨ 100 < (100 : Byte).toNat)) ∧
      ∃ r ∈ demo.allot 2, r.tag = .live ∧ r.tenant &&& 0xFF = 7 &&& 0xFF ∧ r.partner.isSome :=
  ⟨demo_accepting, demo_records, refusing_accepting, refusing_records, by decide +kernel⟩

/-- One pair of handles for each clause: done, ALREADY, and every CONFLICT in its order. -/
theorem test_witness_PairAndUnpair :
    demo.Accepting ∧ demo.PairLaw ∧
      (∃ a ∈ demo.allot 0, ∃ b ∈ demo.allot 5, demo.zoneOf a = some 1 ∧ demo.zoneOf b = some 1 ∧ a.tag = .live ∧
        b.tag = .live ∧ a.partner = none ∧ b.partner = none ∧ a.sled ≠ b.sled ∧ a.sameContract b = true ∧
        a.grant = .settled ∧ b.grant = .changing) ∧
      (∃ a ∈ demo.allot 2, a.tag = .live ∧ a.partner = some 3) ∧
      (∃ a ∈ demo.allot 0, ∃ b ∈ demo.allot 1, a.tag = .live ∧ b.tag = .live ∧ b.partner = none ∧ a.sled = b.sled) ∧
      (∃ b ∈ demo.allot 11, b.tag = .live ∧ b.partner = none ∧ demo.zoneOf b = some 2) ∧
      (∃ b ∈ demo.allot 12, b.tag = .live ∧ b.partner = none ∧ demo.zoneOf b = some 1 ∧ b.weight = 5) ∧
      ∃ b ∈ demo.allot 4, b.tag = .live ∧ b.partner = none ∧ demo.zoneOf b = some 1 ∧ b.grant = .parked :=
  ⟨demo_accepting, demo_records.pairs, by decide +kernel⟩

/-- A record for every row of the table of states that a record of `demo` can stand in. -/
theorem test_witness_ParkMovesByState :
    demo.Accepting ∧ demo.RecordLaws ∧
      (∀ p ∈ ([(0, .settled, .linked), (1, .changing, .linked), (3, .held, .silent), (4, .parked, .lost),
          (5, .changing, .lost), (7, .unlinked, .idle), (8, .parking, .silent), (10, .parkPending, .silent),
          (11, .fallen, .lost), (13, .parked, .idle)] : List (Handle × GrantState × Link)),
        ∃ r ∈ demo.allot p.1, r.tag = .live ∧ r.grant = p.2.1 ∧ (demo.sled r.sled).link = p.2.2) ∧
      (∃ r ∈ demo.allot 0, demo.reachable r.sled = true) ∧ (∃ r ∈ demo.allot 7, r.exposure = r.idle) ∧
      (demo.sled 12).link ≠ .unplaced ∧ (demo.sled 20).link = .unplaced :=
  ⟨demo_accepting, demo_records, by decide +kernel⟩

/-- Records that an UNPARK changes, one it does not, a RETIRING one, and sleds. -/
theorem test_witness_UnparkReturnsRecords :
    demo.Accepting ∧ demo.RecordLaws ∧ demo.QuietLaw ∧
      (∃ r ∈ demo.allot 0, r.tag = .live ∧ r.partner = none ∧ r.grant = .settled) ∧
      (∃ r ∈ demo.allot 9, r.tag = .live ∧ r.grant = .parked ∧ demo.reachable r.sled = true) ∧
      (∃ r ∈ demo.allot 4, r.tag = .live ∧ r.grant = .parked ∧ demo.reachable r.sled = false) ∧
      (∃ r ∈ demo.allot 8, r.tag = .live ∧ r.grant = .parking ∧ r.wakeAfter = false) ∧
      (∃ r ∈ demo.allot 10, r.tag = .live ∧ r.grant = .parkPending) ∧ (∃ r ∈ demo.allot 6, r.tag = .retiring) ∧
      (demo.sled 12).link ≠ .unplaced ∧ (demo.sled 3).link ≠ .unplaced ∧ (demo.sled 20).link = .unplaced :=
  ⟨demo_accepting, demo_records, demo_quiet, by decide +kernel⟩

/-- A record for each path: RETIRING, freed by each of the three conditions, kept, sent, and waiting at 15. -/
theorem test_witness_RetireTakesFirstPath :
    demo.Accepting ∧ demo.RecordLaws ∧ (∃ r ∈ demo.allot 6, r.tag = .retiring ∧ demo.zoneOf r = some 1) ∧
      (∃ r ∈ demo.allot 7, r.tag = .live ∧ r.grant = .unlinked ∧ (demo.sled r.sled).link = .idle ∧ 0 < r.exposure) ∧
      (∃ r ∈ demo.allot 13, r.tag = .live ∧ r.grant = .parked ∧ (demo.sled r.sled).link = .idle) ∧
      (∃ r ∈ demo.allot 11, r.tag = .live ∧ (demo.sled r.sled).link = .lost ∧ (demo.sled r.sled).elapsed = true ∧
        demo.zoneOf r = some 2) ∧
      (∃ r ∈ demo.allot 5, r.tag = .live ∧ (demo.sled r.sled).link = .lost ∧ (demo.sled r.sled).elapsed = false) ∧
      (∃ r ∈ demo.allot 2, r.tag = .live ∧ r.partner = some 3 ∧ demo.reachable r.sled = true ∧ r.unacked < 15) ∧
      (∃ r ∈ demo.allot 9, r.tag = .live ∧ r.grant = .parked ∧ demo.reachable r.sled = true) ∧
      ∃ r ∈ demo.allot 12, r.tag = .live ∧ demo.reachable r.sled = true ∧ r.unacked = 15 :=
  ⟨demo_accepting, demo_records, by decide +kernel⟩

theorem test_witness_RestartKeepsContracts : demo.Accepting := demo_accepting

theorem test_witness_PowerOnResetAndResetEnd :
    (after .powerOnReset demo).resetHeld = true ∧ demo.resetHeld = false ∧ Instr.lookup 5 ≠ .powerOnReset ∧
      Instr.lookup 5 ≠ .resetEnd ∧ ∀ z level, Instr.lookup 5 ≠ .curtailEdge z level :=
  ⟨by decide +kernel, by decide +kernel, by decide, by decide, by intros; simp⟩

/-- `demo` with the curtail line of zone 1 taken as active and about to be taken as inactive: B rises from 300 to 1200. -/
def curtailed : State :=
  { demo with zones := demo.zones.set 1 { demo.zone 1 with taken := true, budget := 300, candidate := some false } }

/-- Zones 2, 3, 4, 1 and 0: stopped; no candidate; the taken level; another level; and the first since reset. -/
theorem test_witness_CurtailFilterTakesLevel :
    demo.resetHeld = false ∧ demo.PairLaw ∧ (demo.zone 2).filter = .stopped ∧
      ((demo.zone 3).filter = .running ∧ (demo.zone 3).candidate = none) ∧
      ((demo.zone 4).filter = .running ∧ (demo.zone 4).firstTaken = true ∧ (demo.zone 4).candidate = some false ∧
        (demo.zone 4).taken = false) ∧
      ((demo.zone 1).filter = .running ∧ (demo.zone 1).candidate = some true ∧ (demo.zone 1).taken = false) ∧
      ((demo.zone 0).filter = .running ∧ (demo.zone 0).candidate = some false ∧ (demo.zone 0).firstTaken = false) ∧
      (let v := curtailed.zone 1
       curtailed.resetHeld = false ∧ curtailed.PairLaw ∧ v.filter = .running ∧ v.candidate = some false ∧ v.taken = true ∧
         v.budget < v.ob) :=
  ⟨by decide +kernel, demo_records.pairs, by decide +kernel, by decide +kernel, by decide +kernel, by decide +kernel,
    by decide +kernel, by decide +kernel, demo_records.pairs, by decide +kernel⟩

/-- `demo` while zone 1 is in service. -/
def busy : State := (demo.requestNormal 1).serveRequests

theorem busy_records : busy.RecordLaws :=
  recordLaws_of (n := 16) (by decide +kernel) (by decide +kernel) (by decide +kernel) (by decide +kernel)

theorem test_witness_CompletionAppliesTargets :
    ∃ v, busy.resetHeld = false ∧ busy.RecordLaws ∧ busy.SnapshotLaw ∧ busy.service = some v ∧
      0 < (busy.zone v.zone).ramp ∧ (∃ r ∈ busy.allot 0, busy.zoneOf r = some v.zone ∧ r.tag = .live ∧ r.mark = true ∧
        r.grant = .settled ∧ busy.mayPlace r = true) ∧
      ∃ r ∈ busy.allot 0, ∃ u ∈ (after .recomputeCompletion busy).allot 0, r.sent < u.target := by
  have h : ∃ v ∈ busy.service, v.zone = 1 := by decide +kernel
  obtain ⟨v, hv, hz⟩ := h
  exact ⟨v, by decide +kernel, busy_records, snapshot_of (by decide +kernel), hv,
    by rw [hz]; decide +kernel, by rw [hz]; decide +kernel, by decide +kernel⟩

/-- `demo` with the requests of some zones, and a table that names one zone alone. -/
def asking (urgent normal : List ZoneNo) (table : Vector ZoneNo 16) : State :=
  { demo with
    table
    zones := tabulate fun z => { demo.zone z with urgentReq := urgent.contains z, normalReq := normal.contains z } }

/-- Urgent; the first and the last phase of the walk; a zone in no phase; and no request. -/
theorem test_witness_ApportionerServiceOrder :
    demo.service = none ∧
      (let s := asking [7] [0] demo.table
       (s.zone 7).urgentReq = true ∧ ∀ y < (7 : ZoneNo), (s.zone y).urgentReq = false) ∧
      (let s := asking [] [0] demo.table
       (∀ z : ZoneNo, (s.zone z).urgentReq = false) ∧
         (s.zone s.table[s.pointer + 1 + Fin.ofNat 16 0]).normalReq = true) ∧
      (let s := asking [] [5] ((Vector.replicate 16 (3 : ZoneNo)).set 15 5)
       (∀ z : ZoneNo, (s.zone z).urgentReq = false) ∧
         (s.zone s.table[s.pointer + 1 + Fin.ofNat 16 15]).normalReq = true ∧
         ∀ j < 15, (s.zone s.table[s.pointer + 1 + Fin.ofNat 16 j]).normalReq = false) ∧
      (let s := asking [] [7] (Vector.replicate 16 3)
       (∀ p : Fin 16, (s.zone s.table[p]).normalReq = false) ∧ (s.zone 7).normalReq = true ∧
         ∀ y < (7 : ZoneNo), (s.zone y).normalReq = false) ∧
      ∀ z : ZoneNo, (demo.zone z).normalReq = false := by decide +kernel

/-- `demo` with a RETIRING record of sled 5, whose fallback elapses at the next refresh event. -/
def elapsing : State :=
  { demo with
    allotments :=
      demo.allotments.set 5 (some { standing 5 2 .changing 100 40 with tag := .retiring, acked := 60, unacked := 1 })
    sleds := demo.sleds.set 5 { demo.sled 5 with fallbacks := 4 } }

theorem elapsing_records : elapsing.RecordLaws :=
  recordLaws_of (n := 16) (by decide +kernel) (by decide +kernel) (by decide +kernel) (by decide +kernel)

theorem test_witness_RefreshEventCounts_freeing :
    elapsing.resetHeld = false ∧ elapsing.TableLaw ∧ elapsing.PairLaw ∧ elapsing.QueueLaw ∧ elapsing.LinkLaw ∧
      elapsing.RangeLaw ∧ elapsing.SumLaw ∧ (elapsing.station 0).timer = .running ∧
      ∃ r ∈ elapsing.allot 5, r.tag = .retiring ∧ stationOf r.sled = 0 ∧ (elapsing.sled r.sled).link = .lost ∧
        (elapsing.sled r.sled).elapsed = false ∧ (elapsing.sled r.sled).fallbacks + 1 = 5 :=
  ⟨by decide +kernel, elapsing_records.table, elapsing_records.pairs, queues_of (by decide +kernel),
    links_of (by decide +kernel), ranges_of (by decide +kernel), elapsing_records.sums, by decide +kernel,
    by decide +kernel⟩

/-- `demo` with the fallback of sled 5, of a PARKED and a CHANGING record, to elapse at the next refresh event. -/
def falling : State := { demo with sleds := demo.sleds.set 5 { demo.sled 5 with fallbacks := 4 } }

theorem falling_records : falling.RecordLaws :=
  recordLaws_of (n := 16) (by decide +kernel) (by decide +kernel) (by decide +kernel) (by decide +kernel)

theorem test_witness_RefreshEventCounts_falling :
    falling.resetHeld = false ∧ falling.RecordLaws ∧ falling.QueueLaw ∧ falling.LinkLaw ∧ falling.RangeLaw ∧
      falling.AttentionLaw ∧ (falling.station 0).timer = .running ∧ falling.zoneOfSled 5 = some 1 ∧
      ((falling.sled 5).link = .lost ∧ (falling.sled 5).elapsed = false ∧ (falling.sled 5).fallbacks + 1 = 5) ∧
      (∃ r ∈ falling.allot 4, r.sled = 5 ∧ r.tag = .live ∧ r.grant = .parked) ∧
      ∃ r ∈ falling.allot 5, r.sled = 5 ∧ r.tag = .live ∧ r.grant = .changing ∧ r.fallbackFloor < r.exposure :=
  ⟨by decide +kernel, falling_records, queues_of (by decide +kernel), links_of (by decide +kernel),
    ranges_of (by decide +kernel), by unfold State.AttentionLaw; decide +kernel, by decide +kernel⟩

/-- R126, R195: the CHANGING record falls to its fallback floor in the refresh event, and its zone is requested. -/
theorem test_fallback_within_refresh_event :
    let t := after (.refreshEvent 0) falling
    ((t.allot 5).map fun r => (r.grant, r.acked, r.sent, r.highest)) = some (.fallen, 80, 80, 80) ∧
      (t.service.map (·.zone)) = some 1 := by decide +kernel

/-- Station 0 loses sled 7 at its fourth restatement and counts for sled 5, whose fallback runs on with a shorter
interval pending; station 1 loses sled 8 by silence and ends the fallback of sled 9, with a longer interval pending;
station 2 has a shorter one and no fallback running. -/
theorem test_witness_RefreshEventCounts :
    demo.resetHeld = false ∧ demo.TableLaw ∧ demo.PairLaw ∧ demo.QueueLaw ∧ demo.LinkLaw ∧ demo.RangeLaw ∧
      (∀ st ∈ ([0, 1, 2] : List StationNo), (demo.station st).timer = .running) ∧
      ((demo.sled 5).link = .lost ∧ (demo.sled 5).elapsed = false ∧ (demo.sled 5).fallbacks + 1 ≠ 5) ∧
      ((demo.sled 9).link = .lost ∧ (demo.sled 9).elapsed = false ∧ (demo.sled 9).fallbacks + 1 = 5) ∧
      (demo.reachable 7 = true ∧ ∃ r ∈ demo.allot 12, r.sled = 7 ∧ r.grant = .changing ∧ r.latest ≠ .none ∧
        demo.frameHolds 7 12 = false ∧ r.restatements = 3) ∧
      (demo.reachable 8 = true ∧ (demo.sled 8).silence + 1 = 8) ∧
      (demo.reachable 3 = true ∧ (demo.sled 3).silence + 1 < 3 ∧ ∀ h : Handle, ∀ r ∈ demo.allot h, r.sled = 3 →
        r.restatements ≠ 3) ∧
      ((demo.station 0).pendingInterval = some 5 ∧ (demo.station 1).pendingInterval = some 12 ∧
        (demo.station 2).pendingInterval = some 5 ∧ (demo.station 3).pendingInterval = none) :=
  ⟨by decide +kernel, demo_records.table, demo_records.pairs, demo_queues, links_of demo_sleds, demo_ranges,
    by decide +kernel⟩

/-- `demo` with sled 3 at silence count 3, sled 8 at 8, and the fallback count of sled 5 at 5. -/
def overdue : State :=
  { demo with
    sleds := ((demo.sleds.set 3 { demo.sled 3 with silence := 3 }).set 8 { demo.sled 8 with silence := 8 }).set 5
      { demo.sled 5 with fallbacks := 5 } }

/-- `overdue` with a record of sled 3 restated four times. -/
def restated : State :=
  { overdue with
    allotments := overdue.allotments.set 1 (some { standing 3 2 .changing 100 135 with restatements := 4 }) }

theorem test_witness_SledEventsOfTheirCondition :
    overdue.resetHeld = false ∧ ((overdue.sled 3).link = .linked ∧ 3 ≤ (overdue.sled 3).silence) ∧
      (overdue.reachable 8 = true ∧ 8 ≤ (overdue.sled 8).silence) ∧
      (restated.resetHeld = false ∧ restated.reachable 3 = true ∧
        ∃ h ∈ (restated.sled 3).handles, ∃ r ∈ restated.allot h, 4 ≤ r.restatements) ∧
      ¬(demo.sled 8).silence = 8 ∧ demo.warmTimers[(3 : SledNo)] = .running ∧
      demo.warmTimers[(4 : SledNo)] = .stopped := by decide +kernel

theorem overdue_records : overdue.RecordLaws :=
  recordLaws_of (n := 16) (by decide +kernel) (by decide +kernel) (by decide +kernel) (by decide +kernel)

/-- The fallback is due for sled 5 in `overdue` and not in `demo`. -/
theorem test_witness_FallbackAssumesFloor :
    overdue.resetHeld = false ∧ overdue.RecordLaws ∧ overdue.zoneOfSled 5 = some 1 ∧
      ((overdue.sled 5).link = .lost ∧ (overdue.sled 5).elapsed = false ∧ 5 ≤ (overdue.sled 5).fallbacks) ∧
      (∃ r ∈ overdue.allot 4, r.sled = 5 ∧ r.tag = .live ∧ r.grant = .parked) ∧
      (∃ r ∈ overdue.allot 5, r.sled = 5 ∧ r.tag = .live ∧ r.grant = .changing ∧ r.fallbackFloor < r.exposure) ∧
      demo.resetHeld = false ∧
      demo.RecordLaws ∧ ¬5 ≤ (demo.sled 5).fallbacks :=
  ⟨by decide +kernel, overdue_records, by decide +kernel, by decide +kernel, by decide +kernel, by decide +kernel,
    by decide +kernel, demo_records, by decide +kernel⟩

theorem test_witness_TransmissionSendsHeadFrame :
    demo.resetHeld = false ∧ (demo.station 0).sending = none ∧
      (∃ f rest, (demo.station 0).queue = f :: rest) ∧ (demo.station 2).queue = [] ∧
      ((after (.transmissionStart 0) demo).resetHeld = false ∧
        ((after (.transmissionStart 0) demo).station 0).sending.isSome) :=
  ⟨by decide +kernel, by decide +kernel, ⟨_, _, rfl⟩, by decide +kernel, by decide +kernel⟩

/-- A JOIN of an IDLE sled, of a LOST one, and rejoins of a LINKED and of a SILENT one. -/
theorem test_witness_JoinLinksSled :
    demo.resetHeld = false ∧ demo.RecordLaws ∧ demo.QueueLaw ∧ demo.RangeLaw ∧
      (∃ r ∈ demo.allot 0, r.sled = 3 ∧ r.grant ≠ .parked ∧ r.idle < r.exposure) ∧
      ((demo.sled 6).placement = some ⟨1, 1, none⟩ ∧ 1 = (1 : Byte).toNat ∧ (demo.sled 6).link = .idle) ∧
      ((demo.sled 5).placement = some ⟨1, 2, none⟩ ∧ 2 = (2 : Byte).toNat ∧ (demo.sled 5).link = .lost) ∧
      ((demo.sled 3).placement = some ⟨1, 2, none⟩ ∧ demo.reachable 3 = true ∧ (demo.sled 3).answered = true) ∧
      ((demo.sled 12).placement = some ⟨1, 4, some 4⟩ ∧ 4 = (4 : Byte).toNat ∧ demo.reachable 12 = true ∧
        (demo.sled 12).answered = true) :=
  ⟨by decide +kernel, demo_records, demo_queues, demo_ranges, by decide +kernel⟩

theorem test_witness_JoinRefusedOrRepeated :
    demo.resetHeld = false ∧ (demo.sled 20).placement = none ∧
      (∀ p ∈ (demo.sled 3).placement, p.channels ≠ (3 : Byte).toNat) ∧
      ((demo.sled 4).placement = some ⟨1, 2, some 3⟩ ∧ 2 = (2 : Byte).toNat ∧ demo.reachable 4 = true ∧
        (demo.sled 4).answered = false) := by decide +kernel

/-- A sled that is not heard, one that reports another count, and whole reports of one and of four triples. -/
theorem test_witness_ReportAssessed :
    demo.resetHeld = false ∧ demo.RecordLaws ∧ demo.ChainLaw ∧ demo.EffectiveLaw ∧ demo.reachable 5 = false ∧
      (demo.reachable 3 = true ∧ ∀ p ∈ (demo.sled 3).placement, p.channels ≠ [triple].length) ∧
      (demo.reachable 7 = true ∧ (demo.sled 7).placement = some ⟨1, [triple].length, none⟩) ∧
      (demo.reachable 12 = true ∧
        (demo.sled 12).placement = some ⟨1, [triple, triple, triple, triple].length, some 4⟩) :=
  ⟨by decide +kernel, demo_records, chains_of demo_sleds, effective_of demo_sleds, by decide +kernel⟩

/-- `demo` with the pair of handles 2 and 3 as given: handle 2 waits for its acknowledgement at 100. -/
def pairWaits (target highest : Nat) (g : GrantState) : State :=
  { demo with
    allotments :=
      (demo.allotments.set 2
        (some { standing 4 1 .changing 100 target with partner := some 3, highest, acked := 60, unacked := 1 })).set 3
        (some { standing 12 1 g 100 135 with partner := some 2 })
    zones := demo.zones.set 1 { demo.zone 1 with x := 960 + highest } }

theorem pairWaits_records {target highest : Nat} {g : GrantState}
    (h : (target, highest, g) ∈ [(135, 120, GrantState.held), (100, 100, .held), (60, 100, .settled), (135, 100, .changing)]) :
    (pairWaits target highest g).RecordLaws := by
  simp only [List.mem_cons, Prod.mk.injEq, List.not_mem_nil, or_false] at h
  obtain ⟨rfl, rfl, rfl⟩ | ⟨rfl, rfl, rfl⟩ | ⟨rfl, rfl, rfl⟩ | ⟨rfl, rfl, rfl⟩ := h <;>
    exact recordLaws_of (n := 16) (by decide +kernel) (by decide +kernel) (by decide +kernel) (by decide +kernel)

/-- R73, R77: the member at its target is acknowledged, and the partner that waited is raised by two ramps. -/
theorem test_ack_raises_the_waiting_partner :
    let t := after (.ack 4 [⟨2, 5⟩]) (pairWaits 100 100 .held)
    ([2, 3] : List Handle).map (fun h => (t.allot h).map fun r => (r.grant, r.sent)) =
      [some (.settled, 100), some (.changing, 132)] ∧ (t.zone 1).x = 1092 := by decide +kernel

/-- ACKs of one pair: the partner is ready and the exposure falls; the partner alone waits below its target; the target
below the sent grant; the partner not ready. -/
theorem test_witness_AckSettlesLatestEntry_pairs :
    (∀ v ∈ [(135, 120, GrantState.held), (100, 100, .held), (60, 100, .settled), (135, 100, .changing)],
      (pairWaits v.1 v.2.1 v.2.2).RecordLaws) ∧
      (∀ v ∈ [(135, 120, GrantState.held), (100, 100, .held), (60, 100, .settled), (135, 100, .changing)],
        let s := pairWaits v.1 v.2.1 v.2.2
        s.resetHeld = false ∧ s.reachable 4 = true ∧ s.reachable 12 = true ∧
          ∃ r ∈ s.allot 2, r.sequence = 5 ∧ r.sled = 4 ∧ s.zoneOf r = some 1 ∧ r.tag = .live ∧ r.grant = .changing ∧
            r.latest = .grant 95 63 80 ∧ r.partner = some 3 ∧ (r.exposure = v.2.1 ∧ r.sent = 100 ∧ r.target = v.1) ∧
            ∃ q ∈ s.allot 3, q.grant = v.2.2 ∧ q.sent < q.target) ∧
      ∀ v ∈ [(135, 120, GrantState.held), (100, 100, .held), (60, 100, .settled), (135, 100, .changing)],
        (pairWaits v.1 v.2.1 v.2.2).SettingsLaw :=
  ⟨fun _ hv => pairWaits_records hv, by decide +kernel, fun v hv => by
    fin_cases hv <;> exact settings_of (by decide +kernel)⟩

/-- Records whose latest entry an ACK of one to four pairs names, and an ACK that names none. -/
theorem test_witness_AckSettlesLatestEntry :
    demo.resetHeld = false ∧ demo.RecordLaws ∧ demo.SettingsLaw ∧ demo.QuietLaw ∧ demo.reachable 5 = false ∧
      (demo.reachable 3 = true ∧ (∃ r ∈ demo.allot 1, r.sled = 3 ∧ r.sequence = 5 ∧ r.tag = .live ∧
        r.grant = .changing ∧ r.latest = .grant 95 63 80 ∧ r.sent < r.target)) ∧
      (∀ h : Handle, ∀ r ∈ demo.allot h, r.sled = 3 →
        (⟨byteOf h.val, r.sequence⟩ : AckPair) ∉ [(⟨1, 4⟩ : AckPair), ⟨159, 5⟩]) ∧
      (demo.reachable 7 = true ∧ ∃ r ∈ demo.allot 12, r.sled = 7 ∧ r.sequence = 5 ∧ r.grant = .changing ∧
        r.target = r.sent) ∧
      (demo.reachable 12 = true ∧ (∃ r ∈ demo.allot 8, r.sled = 12 ∧ r.sequence = 5 ∧ r.grant = .parking ∧
          r.latest = .park ∧ r.wakeAfter = false) ∧
        ∃ r ∈ demo.allot 10, r.sled = 12 ∧ r.sequence = 5 ∧ r.grant = .parkPending ∧ r.latest = .grant 95 63 80) ∧
      (demo.reachable 4 = true ∧ ∃ r ∈ demo.allot 6, r.sled = 4 ∧ r.sequence = 5 ∧ r.tag = .retiring ∧
        r.grant = .changing ∧ r.latest = .release) ∧
      (demo.reachable 17 = true ∧ (∃ r ∈ demo.allot 14, r.sled = 17 ∧ r.sequence = 5 ∧ r.tag = .live ∧
          r.grant = .parking ∧ r.latest = .park ∧ r.wakeAfter = true) ∧
        ∃ r ∈ demo.allot 15, r.sled = 17 ∧ r.sequence = 5 ∧ r.tag = .retiring ∧ r.grant = .changing ∧
          r.latest = .grant 95 63 80) ∧
      [(⟨3, 5⟩ : AckPair), ⟨8, 5⟩, ⟨9, 5⟩, ⟨10, 5⟩].Pairwise (fun a b => a.handle ≠ b.handle) :=
  ⟨by decide +kernel, demo_records, settings_of demo_settings, demo_quiet, by decide +kernel⟩

/-- The snapshot of Case 1 with a budget that holds it, one between, and one at or below the sum of idles. -/
theorem test_witness_TargetsStayWithinBounds_pair :
    let v := caseFour .warm
    v.warmDerate ≤ 100 ∧ v.hotDerate ≤ 100 ∧
      (∀ e ∈ v.snaps, e.idle < e.peak ∧ e.idle ≤ e.floor ∧ e.floor ≤ e.ceiling ∧ e.ceiling ≤ e.peak) ∧
      (∀ e ∈ v.snaps, ∀ f ∈ v.snaps, e.partner = some f.handle → f.partner = some e.handle → f.idle = e.idle) ∧
      ((v.snaps.map (·.handle)).Pairwise (· < ·) ∧ ∀ e ∈ v.snaps, 1 ≤ e.weight) ∧
      ∃ e ∈ v.snaps, ∃ f ∈ v.snaps, e.partner = some f.handle ∧ f.partner = some e.handle := by decide +kernel

theorem test_witness_TargetsStayWithinBounds :
    let v := caseOne 320
    v.warmDerate ≤ 100 ∧ v.hotDerate ≤ 100 ∧
      (∀ e ∈ v.snaps, e.idle < e.peak ∧ e.idle ≤ e.floor ∧ e.floor ≤ e.ceiling ∧ e.ceiling ≤ e.peak) ∧
      (∀ e ∈ v.snaps, ∀ f ∈ v.snaps, e.partner = some f.handle → f.partner = some e.handle → f.idle = e.idle) ∧
      ((v.snaps.map (·.handle)).Pairwise (· < ·) ∧ ∀ e ∈ v.snaps, 1 ≤ e.weight) ∧
      (v.floors = 320 ∧ v.floors ≤ v.budget ∧ ¬(caseOne 600).isShort = true ∧ (caseOne 600).budget - v.floors < 320) ∧
      v.idles = 160 ∧ (caseOne 161).idles < (caseOne 161).budget ∧ 320 ≤ (caseOne 640).budget - v.floors ∧
      ((caseOne 160).budget < (caseOne 160).floors ∧ (caseOne 160).budget ≤ (caseOne 160).idles) := by decide +kernel

theorem test_witness_DemandWindowAndThermalArithmetic :
    (40 < 200 ∧ 255 ≤ 255) ∧ (40 ≤ 200 ∧ 200 ≤ 200) ∧ Assessor.powerOn.Legal := ⟨by decide, by decide, legal_powerOn⟩

end Sys2Proof.Tests
end

section
/-! PROOFS. What Stages 2 to 5 compute (R51 to R58): the facts of each stage, in the order of the definitions, and from
them the statement on the targets of a recompute. -/

namespace Sys2Proof.Machine

/-! ## Stage 2: the rows of R52 -/

theorem Snap.idles_iff {e : Snap} :
    e.idles = true ↔ e.tag = .retiring ∨ e.grant = .parkPending ∨ e.grant = .parking ∨ e.grant = .parked ∨
      e.eff = .critical := by
  unfold Snap.idles
  cases e.grant <;> simp [GrantState.inPark]

theorem GrantState.offLink_iff {g : GrantState} : g.offLink = true ↔ g = .fallen ∨ g = .unlinked := by
  cases g <;> simp [GrantState.offLink]

theorem derateFor_le {warm hot : Nat} (hw : warm ≤ 100) (hh : hot ≤ 100) (t : Thermal) :
    derateFor warm hot t ≤ 100 := by
  cases t <;> simp [derateFor, hw, hh]

/-- R51: a derate of at most 100 keeps ce within the ceiling. -/
theorem effectiveCeiling_le {floor ceiling p : Nat} (hf : floor ≤ ceiling) (hp : p ≤ 100) :
    effectiveCeiling floor ceiling p ≤ ceiling := by
  have hshare : ceiling * p / 100 ≤ ceiling :=
    Nat.div_le_of_le_mul (by rw [Nat.mul_comm 100]; exact Nat.mul_le_mul_left _ hp)
  exact max_le hf hshare

theorem Snap.want_of_idles {e : Snap} {warm hot : Nat} (h : e.idles = true) : e.want warm hot = e.idle := by
  simp [Snap.want, h]

theorem Snap.idle_le_effFloor {e : Snap} (h : e.idle ≤ e.floor) : e.idle ≤ e.effFloor := by
  unfold Snap.effFloor; split <;> omega

theorem Snap.effFloor_le_want (warm hot : Nat) (e : Snap) : e.effFloor ≤ e.want warm hot := by
  unfold Snap.effFloor Snap.want; split <;> [exact le_rfl; (split <;> omega)]

theorem Snap.want_le_floor_of_offLink {e : Snap} {warm hot : Nat} (h : e.grant.offLink = true) (hf : e.idle ≤ e.floor) :
    e.want warm hot ≤ e.floor := by
  by_cases hi : e.idles = true <;> simp [Snap.want, hi, h, hf]

theorem Snap.want_le_effectiveCeiling {e : Snap} {warm hot : Nat} (hf : e.idle ≤ e.floor) :
    e.want warm hot ≤ effectiveCeiling e.floor e.ceiling (derateFor warm hot e.eff) := by
  have hce : e.floor ≤ effectiveCeiling e.floor e.ceiling (derateFor warm hot e.eff) := le_max_left ..
  unfold Snap.want; split <;> [omega; (split <;> omega)]

/-! ## Stage 3: the short targets (R53) -/

/-- The idle sum is what the effective floors hold besides their parts above idle. -/
theorem Service.floors_eq {v : Service} (hf : ∀ e ∈ v.snaps, e.idle ≤ e.floor) :
    v.floors = v.idles + (v.snaps.map fun e => e.effFloor - e.idle).sum := by
  unfold Service.floors Service.idles
  rw [← List.sum_map_add]
  exact congrArg List.sum (List.map_congr_left fun e he => by have := Snap.idle_le_effFloor (hf e he); omega)

theorem Service.idle_le_shortTarget (v : Service) (e : Snap) : e.idle ≤ v.shortTarget e := by
  unfold Service.shortTarget; split <;> simp

theorem Service.shortTarget_le_effFloor {v : Service} {e : Snap} (hshort : v.budget < v.floors)
    (hf : e.idle ≤ e.floor) : v.shortTarget e ≤ e.effFloor := by
  have hfe := Snap.idle_le_effFloor hf
  unfold Service.shortTarget
  split
  · have hshare : (e.effFloor - e.idle) * (v.budget - v.idles) / (v.floors - v.idles) ≤ e.effFloor - e.idle :=
      Nat.div_le_of_le_mul (by rw [Nat.mul_comm (v.floors - v.idles)]; exact Nat.mul_le_mul_left _ (by omega))
    omega
  · exact hfe

/-- Truncated parts sum to at most the part of the sum. -/
theorem sum_map_div_le {α : Type} (l : List α) (f : α → Nat) (d : Nat) :
    (l.map fun e => f e / d).sum ≤ (l.map f).sum / d := by
  induction l with
  | nil => simp
  | cons e l ih =>
    simp only [List.map_cons, List.sum_cons]
    exact (Nat.add_le_add_left ih _).trans (Nat.div_add_div_le_add_div ..)

theorem Service.sum_shortTarget_le {v : Service} (hf : ∀ e ∈ v.snaps, e.idle ≤ e.floor) (hshort : v.budget < v.floors)
    (hidle : v.idles < v.budget) : (v.snaps.map v.shortTarget).sum ≤ v.budget := by
  have hfloors := Service.floors_eq hf
  have hparts := sum_map_div_le v.snaps (fun e => (v.budget - v.idles) * (e.effFloor - e.idle)) (v.floors - v.idles)
  rw [List.sum_map_mul_left, show (v.snaps.map fun e => e.effFloor - e.idle).sum = v.floors - v.idles by omega,
    Nat.mul_div_cancel _ (by omega)] at hparts
  have hsum : (v.snaps.map v.shortTarget).sum = v.idles +
      (v.snaps.map fun e => (v.budget - v.idles) * (e.effFloor - e.idle) / (v.floors - v.idles)).sum := by
    unfold Service.idles
    rw [← List.sum_map_add]
    refine congrArg List.sum (List.map_congr_left fun e _ => ?_)
    rw [Service.shortTarget, if_pos hidle, Nat.mul_comm]
    rfl
  omega

/-! ## Stage 4: what the rounds keep and how much they hand out (R54 to R56) -/

/-- The amount a share is made up of, which giving does not change: what it received and what it still needs. -/
def Share.total (a : Share) : Nat := a.received + a.need

theorem Share.total_give {n : Nat} {a : Share} (h : n ≤ a.need) : (a.give n).total = a.total := by
  simp only [Share.total, Share.give]; omega

/-- What the remainder pass gives the share it visits with the remainder `r` (R56). -/
def Share.part (r : Nat) (a : Share) : Nat := if a.unsatisfied then min a.weight (min r a.need) else 0

theorem Share.part_le_need (r : Nat) (a : Share) : a.part r ≤ a.need := by unfold Share.part; split <;> omega

theorem Share.part_le (r : Nat) (a : Share) : a.part r ≤ r := by unfold Share.part; split <;> omega

@[simp] theorem remainderPass_nil (r : Nat) : remainderPass r [] = [] := rfl

@[simp] theorem remainderPass_cons (r : Nat) (a : Share) (l : List Share) :
    remainderPass r (a :: l) = a.give (a.part r) :: remainderPass (r - a.part r) l := rfl

theorem remainderPass_map_total (r : Nat) (l : List Share) :
    (remainderPass r l).map Share.total = l.map Share.total := by
  induction l generalizing r with
  | nil => rfl
  | cons a l ih => simp [ih, Share.total_give (a.part_le_need r)]

theorem remainderPass_sum_received_le (r : Nat) (l : List Share) :
    ((remainderPass r l).map Share.received).sum ≤ (l.map Share.received).sum + r := by
  induction l generalizing r with
  | nil => simp
  | cons a l ih =>
    have hrest := ih (r - a.part r)
    have hpart := a.part_le r
    simp only [remainderPass_cons, List.map_cons, List.sum_cons, Share.give]
    omega

/-- Giving to the shares of a kind hands out the sum of what each of them is given. -/
theorem sum_received_give (c : Share → Bool) (n : Share → Nat) (l : List Share) :
    ((l.map fun a => if c a then a.give (n a) else a).map Share.received).sum =
      (l.map Share.received).sum + ((l.filter c).map n).sum := by
  induction l with
  | nil => rfl
  | cons a l ih =>
    simp only [List.map_cons, List.sum_cons, ih]
    by_cases h : c a = true <;> simp [h, Share.give] <;> omega

theorem map_total_give {c : Share → Bool} {n : Share → Nat} {l : List Share} (h : ∀ a ∈ l, c a = true → n a ≤ a.need) :
    (l.map fun a => if c a then a.give (n a) else a).map Share.total = l.map Share.total := by
  rw [List.map_map]
  refine List.map_congr_left fun a ha => ?_
  by_cases hc : c a = true <;> simp [hc, Share.total_give, h a ha]

/-- R55: what a round hands out is at most its quotient for each unit of weight. -/
theorem handed_le (q : Nat) (l : List Share) :
    ((l.filter (Share.satisfiedBy q)).map Share.need).sum ≤ q * weightSum l := by
  unfold weightSum
  induction l with
  | nil => simp
  | cons a l ih =>
    by_cases hu : a.unsatisfied = true <;> by_cases hn : a.need ≤ q * a.weight <;>
      simp [Share.satisfiedBy, hu, hn, Nat.mul_add] at ih ⊢ <;> omega

/-- What one run of the rounds can do: end with no weight left or no fuel, satisfy some and go on, or end with the
remainder pass (R55). -/
theorem surplusRounds_succ (fuel left : Nat) (l : List Share) :
    surplusRounds (fuel + 1) left l =
      if weightSum l = 0 then l
      else if l.any (Share.satisfiedBy (left / weightSum l)) then
        surplusRounds fuel (left - ((l.filter (Share.satisfiedBy (left / weightSum l))).map Share.need).sum)
          (l.map fun a => if a.satisfiedBy (left / weightSum l) then a.give a.need else a)
      else remainderPass (left - left / weightSum l * weightSum l)
          (l.map fun a => if a.unsatisfied then a.give (left / weightSum l * a.weight) else a) := rfl

/-- In a round that satisfies no share, each unsatisfied one still needs more than its part of the quotient (R55). -/
theorem lt_need_of_none_satisfied {q : Nat} {l : List Share} (h : ¬ l.any (Share.satisfiedBy q) = true) {a : Share}
    (ha : a ∈ l) (hu : a.unsatisfied = true) : q * a.weight < a.need := by
  by_contra hn
  exact h (List.any_eq_true.mpr ⟨a, ha, by simp [Share.satisfiedBy, hu, not_lt.mp hn]⟩)

theorem surplusRounds_map_total (fuel left : Nat) (l : List Share) :
    (surplusRounds fuel left l).map Share.total = l.map Share.total := by
  induction fuel generalizing left l with
  | zero => rfl
  | succ fuel ih =>
    rw [surplusRounds_succ]
    split
    · rfl
    · split
      · rw [ih, map_total_give fun _ _ _ => le_rfl]
      · next hnone =>
        rw [remainderPass_map_total, map_total_give fun a ha hu => (lt_need_of_none_satisfied hnone ha hu).le]

/-- R55: the rounds hand out at most what is left. -/
theorem surplusRounds_sum_received_le (fuel left : Nat) (l : List Share) :
    ((surplusRounds fuel left l).map Share.received).sum ≤ (l.map Share.received).sum + left := by
  induction fuel generalizing left l with
  | zero => simp [surplusRounds]
  | succ fuel ih =>
    have hquotient : left / weightSum l * weightSum l ≤ left := Nat.div_mul_le_self ..
    rw [surplusRounds_succ]
    split
    · omega
    · split
      · have hrest := ih (left - ((l.filter (Share.satisfiedBy (left / weightSum l))).map Share.need).sum)
          (l.map fun a => if a.satisfiedBy (left / weightSum l) then a.give a.need else a)
        have hhanded := handed_le (left / weightSum l) l
        rw [sum_received_give] at hrest
        omega
      · have hpass := remainderPass_sum_received_le (left - left / weightSum l * weightSum l)
          (l.map fun a => if a.unsatisfied then a.give (left / weightSum l * a.weight) else a)
        rw [sum_received_give, List.sum_map_mul_left] at hpass
        exact hpass.trans (by rw [← weightSum]; omega)

theorem surplusShares_map_total (surplus : Nat) (l : List Share) :
    (surplusShares surplus l).map Share.total = l.map Share.total := by
  unfold surplusShares
  split
  · simp [Share.total_give]
  · exact surplusRounds_map_total ..

theorem surplusShares_sum_received_le (surplus : Nat) (l : List Share) :
    ((surplusShares surplus l).map Share.received).sum ≤ (l.map Share.received).sum + surplus := by
  unfold surplusShares
  split
  · next hfit =>
    have hneeds : (l.map Share.need).sum ≤ surplus := hfit
    have hall := sum_received_give (fun _ => true) Share.need l
    simp only [if_true, List.filter_true] at hall
    omega
  · exact surplusRounds_sum_received_le ..

/-! ## The targets Stage 3 or Stage 4 leaves -/

@[simp] theorem Service.startShare_total (v : Service) (e : Snap) : (v.startShare e).total = (v.startShare e).need :=
  Nat.zero_add _

@[simp] theorem Service.startShare_weight (v : Service) (e : Snap) : (v.startShare e).weight = e.weight := rfl

@[simp] theorem Service.startShare_received (v : Service) (e : Snap) : (v.startShare e).received = 0 := rfl

theorem Service.effFloor_add_need (v : Service) (e : Snap) :
    e.effFloor + (v.startShare e).need = e.want v.warmDerate v.hotDerate :=
  Nat.add_sub_cancel' (e.effFloor_le_want ..)

/-- The shares the snapshot's allotments hold at the end of Stage 4. -/
def Service.shares (v : Service) : List Share := surplusShares (v.budget - v.floors) (v.snaps.map v.startShare)

theorem Service.levelled_of_short {v : Service} (h : v.budget < v.floors) :
    v.levelled = v.snaps.map fun e => (e, v.shortTarget e) := by
  simp [Service.levelled, Service.isShort, h]

theorem Service.levelled_of_not_short {v : Service} (h : v.floors ≤ v.budget) :
    v.levelled = (v.snaps.zip v.shares).map fun p => (p.1, p.1.effFloor + p.2.received) := by
  simp [Service.levelled, Service.isShort, Service.shares, not_lt.mpr h]

theorem Service.shares_total (v : Service) :
    List.Forall₂ (fun e a => (v.startShare e).need = Share.total a) v.snaps v.shares := by
  have h : v.snaps.map (fun e => (v.startShare e).need) = v.shares.map Share.total := by
    rw [Service.shares, surplusShares_map_total, List.map_map]
    exact List.map_congr_left fun e _ => (v.startShare_total e).symm
  rw [← List.forall₂_eq_eq_eq, List.forall₂_map_left_iff, List.forall₂_map_right_iff] at h
  exact h

theorem Service.levelled_map_fst (v : Service) : v.levelled.map (·.1) = v.snaps := by
  rcases lt_or_ge v.budget v.floors with h | h
  · simp [Service.levelled_of_short h, Function.comp_def]
  · rw [Service.levelled_of_not_short h, List.map_map]
    exact List.map_fst_zip v.shares_total.length_eq.le

/-- R53, R54: Stages 3 and 4 leave each allotment from its idle to its want. -/
theorem Service.levelled_between {v : Service} (hf : ∀ e ∈ v.snaps, e.idle ≤ e.floor) {p : Snap × Nat}
    (hp : p ∈ v.levelled) : p.1 ∈ v.snaps ∧ p.1.idle ≤ p.2 ∧ p.2 ≤ p.1.want v.warmDerate v.hotDerate := by
  have hmem : p.1 ∈ v.snaps := v.levelled_map_fst ▸ List.mem_map_of_mem hp
  refine ⟨hmem, ?_⟩
  have hwant := p.1.effFloor_le_want v.warmDerate v.hotDerate
  rcases lt_or_ge v.budget v.floors with h | h
  · rw [Service.levelled_of_short h] at hp
    obtain ⟨e, he, rfl⟩ := List.mem_map.mp hp
    exact ⟨v.idle_le_shortTarget e, (Service.shortTarget_le_effFloor h (hf e he)).trans hwant⟩
  · rw [Service.levelled_of_not_short h] at hp
    obtain ⟨⟨e, a⟩, hz, rfl⟩ := List.mem_map.mp hp
    have htotal : (v.startShare e).need = a.received + a.need := (List.forall₂_iff_zip.mp v.shares_total).2 hz
    have hneed := v.effFloor_add_need e
    have hidle := Snap.idle_le_effFloor (hf e hmem)
    dsimp only at hwant ⊢
    omega

/-- R53, R55: Stages 3 and 4 stay within the budget unless the zone is short with a budget that holds no more than the
idle sum. -/
theorem Service.sum_levelled_le {v : Service} (hf : ∀ e ∈ v.snaps, e.idle ≤ e.floor)
    (h : v.floors ≤ v.budget ∨ v.idles < v.budget) : (v.levelled.map (·.2)).sum ≤ v.budget := by
  rcases lt_or_ge v.budget v.floors with hshort | hfloors
  · rw [Service.levelled_of_short hshort, List.map_map]
    exact Service.sum_shortTarget_le hf hshort (by omega)
  · have hlen := v.shares_total.length_eq
    have hreceived : (v.shares.map Share.received).sum ≤ v.budget - v.floors := by
      have := surplusShares_sum_received_le (v.budget - v.floors) (v.snaps.map v.startShare)
      simpa [Function.comp_def, Service.shares] using this
    calc (v.levelled.map (·.2)).sum
        = ((v.snaps.zip v.shares).map fun p => p.1.effFloor + p.2.received).sum := by
          rw [Service.levelled_of_not_short hfloors, List.map_map]; rfl
      _ = v.floors + (v.shares.map Share.received).sum := by
          have hfst : (v.snaps.zip v.shares).map (fun p => p.1.effFloor) = v.snaps.map Snap.effFloor :=
            List.map_map.symm.trans (congrArg (List.map Snap.effFloor) (List.map_fst_zip hlen.le))
          have hsnd : (v.snaps.zip v.shares).map (fun p => p.2.received) = v.shares.map Share.received :=
            List.map_map.symm.trans (congrArg (List.map Share.received) (List.map_snd_zip hlen.ge))
          rw [List.sum_map_add, hfst, hsnd]; rfl
      _ ≤ v.budget := by omega

/-! ## Stage 5: the pairs (R57) -/

/-- The target Stage 5 leaves, of the targets `l` before it. -/
def pairedTarget (l : List (Snap × Nat)) (p : Snap × Nat) : Nat := (partnerTarget l p.1).elim p.2 (min p.2)

theorem pairMinimum_eq (l : List (Snap × Nat)) : pairMinimum l = l.map fun p => (p.1, pairedTarget l p) := by
  refine List.map_congr_left fun p _ => ?_
  unfold pairedTarget
  cases partnerTarget l p.1 <;> rfl

theorem partnerTarget_eq_some {l : List (Snap × Nat)} {e : Snap} {t : Nat} (h : partnerTarget l e = some t) :
    ∃ p ∈ l, e.partner = some p.1.handle ∧ p.1.partner = some e.handle ∧ p.2 = t := by
  obtain ⟨p, hfind, rfl⟩ := Option.map_eq_some_iff.mp h
  have hboth := List.find?_some hfind
  simp only [Bool.and_eq_true, beq_iff_eq] at hboth
  exact ⟨p, List.mem_of_find?_eq_some hfind, hboth.1, hboth.2, rfl⟩

theorem partnerTarget_eq_none {l : List (Snap × Nat)} {e : Snap} :
    partnerTarget l e = none ↔ ∀ p ∈ l, e.partner = some p.1.handle → p.1.partner ≠ some e.handle := by
  simp [partnerTarget]

theorem pairedTarget_le (l : List (Snap × Nat)) (p : Snap × Nat) : pairedTarget l p ≤ p.2 := by
  unfold pairedTarget; cases partnerTarget l p.1 <;> simp

theorem Service.targets_eq (v : Service) : v.targets = v.levelled.map fun p => (p.1, pairedTarget v.levelled p) :=
  pairMinimum_eq _

theorem Service.targets_map_fst (v : Service) : v.targets.map (·.1) = v.snaps := by
  rw [Service.targets_eq, List.map_map]; exact v.levelled_map_fst

theorem Service.sum_targets_le (v : Service) : (v.targets.map (·.2)).sum ≤ (v.levelled.map (·.2)).sum := by
  rw [Service.targets_eq, List.map_map]
  exact List.sum_le_sum fun p _ => pairedTarget_le _ p

/-- R58: a target lies from idle to the want, since the members of a pair have one idle. -/
theorem Service.targets_between {v : Service} (hf : ∀ e ∈ v.snaps, e.idle ≤ e.floor)
    (hpair : ∀ e ∈ v.snaps, ∀ f ∈ v.snaps, e.partner = some f.handle → f.partner = some e.handle → f.idle = e.idle)
    {p : Snap × Nat} (hp : p ∈ v.targets) :
    p.1 ∈ v.snaps ∧ p.1.idle ≤ p.2 ∧ p.2 ≤ p.1.want v.warmDerate v.hotDerate := by
  rw [Service.targets_eq] at hp
  obtain ⟨x, hx, rfl⟩ := List.mem_map.mp hp
  obtain ⟨hmem, hidle, hwant⟩ := Service.levelled_between hf hx
  refine ⟨hmem, ?_, (pairedTarget_le ..).trans hwant⟩
  rw [pairedTarget]
  cases hpt : partnerTarget v.levelled x.1 with
  | none => exact hidle
  | some t =>
    obtain ⟨y, hy, hxy, hyx, rfl⟩ := partnerTarget_eq_some hpt
    obtain ⟨hymem, hyidle, -⟩ := Service.levelled_between hf hy
    exact le_min hidle (hpair x.1 hmem y.1 hymem hxy hyx ▸ hyidle)

/-- R53: where the budget holds no more than the idle sum, a short zone's targets are idle. -/
theorem Service.targets_idle {v : Service} (hf : ∀ e ∈ v.snaps, e.idle ≤ e.floor)
    (hpair : ∀ e ∈ v.snaps, ∀ f ∈ v.snaps, e.partner = some f.handle → f.partner = some e.handle → f.idle = e.idle)
    (hshort : v.budget < v.floors) (hidles : v.budget ≤ v.idles) {p : Snap × Nat} (hp : p ∈ v.targets) :
    p.2 = p.1.idle := by
  refine le_antisymm ?_ (Service.targets_between hf hpair hp).2.1
  rw [Service.targets_eq, Service.levelled_of_short hshort] at hp
  obtain ⟨x, hx, rfl⟩ := List.mem_map.mp hp
  obtain ⟨e, -, rfl⟩ := List.mem_map.mp hx
  refine (pairedTarget_le ..).trans ?_
  simp [Service.shortTarget, not_lt.mpr hidles]

/-! ## Stage 4: where the rounds end (R55)

The rounds before any round of R55 have satisfied exactly the shares whose need is at most some q for each unit of their
weight. A round is described by that q alone, and the rounds climb from one q to its quotient until they meet a q that is
its own. -/

/-- What the shares satisfied at the level `q` need. -/
def metNeeds (q : Nat) (l : List Share) : Nat := ((l.filter fun a => decide (a.need ≤ q * a.weight)).map Share.need).sum

/-- The weights of the shares the level `q` does not satisfy. -/
def openWeights (q : Nat) (l : List Share) : Nat :=
  ((l.filter fun a => decide (q * a.weight < a.need)).map Share.weight).sum

/-- The quotient of a round that finds the shares of level `q` satisfied (R55). -/
def quotientAt (surplus q : Nat) (l : List Share) : Nat := (surplus - metNeeds q l) / openWeights q l

/-- A level the rounds come to: the surplus covers what it satisfies, its quotient is not below it, and every level
below it has a quotient above itself. -/
structure Reached (surplus : Nat) (l : List Share) (p : Nat) : Prop where
  within : metNeeds p l ≤ surplus
  le_quotient : p ≤ quotientAt surplus p l
  below : ∀ k < p, k < quotientAt surplus k l

/-- The amount in the shares when those of level `q` have their need and the others `m` for each unit of weight. -/
theorem metNeeds_add_mul (m q : Nat) (l : List Share) :
    metNeeds q l + m * openWeights q l =
      (l.map fun a => if a.need ≤ q * a.weight then a.need else m * a.weight).sum := by
  rw [List.sum_map_ite, List.sum_map_mul_left]
  simp only [metNeeds, openWeights, not_le]

/-- A share satisfied at a level up to `m` takes no more than `m` for each unit of its weight. -/
theorem metNeeds_add_mul_le {p k m : Nat} (hpk : p ≤ k) (hkm : k ≤ m) (l : List Share) :
    metNeeds k l + m * openWeights k l ≤ metNeeds p l + m * openWeights p l := by
  rw [metNeeds_add_mul, metNeeds_add_mul]
  refine List.sum_le_sum fun a _ => ?_
  have hp := Nat.mul_le_mul_right a.weight hpk
  have hm := Nat.mul_le_mul_right a.weight hkm
  split <;> split <;> omega

section
variable {surplus : Nat} {l : List Share}

/-- Where the needs are above the surplus, a level the surplus covers leaves a share unsatisfied. -/
theorem openWeights_pos (hover : surplus < (l.map Share.need).sum) (hweight : ∀ a ∈ l, 1 ≤ a.weight) {q : Nat}
    (hwithin : metNeeds q l ≤ surplus) : 0 < openWeights q l := by
  by_contra hzero
  have hall : ∀ a ∈ l, decide (a.need ≤ q * a.weight) = true := by
    intro a ha
    by_contra hopen
    have hmem : a.weight ∈ (l.filter fun a => decide (q * a.weight < a.need)).map Share.weight :=
      List.mem_map_of_mem (List.mem_filter.mpr ⟨ha, by simpa using hopen⟩)
    have hle : a.weight ≤ openWeights q l := List.le_sum_of_mem hmem
    have := hweight a ha
    omega
  rw [metNeeds, List.filter_eq_self.mpr hall] at hwithin
  omega

/-- From a level up to its quotient, the surplus covers every level and the quotient does not fall. -/
theorem quotientAt_mono (hover : surplus < (l.map Share.need).sum) (hweight : ∀ a ∈ l, 1 ≤ a.weight) {p k : Nat}
    (hwithin : metNeeds p l ≤ surplus) (hpk : p ≤ k) (hk : k ≤ quotientAt surplus p l) :
    metNeeds k l ≤ surplus ∧ quotientAt surplus p l ≤ quotientAt surplus k l := by
  have hquotient : quotientAt surplus p l * openWeights p l ≤ surplus - metNeeds p l := Nat.div_mul_le_self ..
  have hfill := metNeeds_add_mul_le hpk hk l
  have hcovered : metNeeds k l ≤ surplus := by omega
  refine ⟨hcovered, (Nat.le_div_iff_mul_le (openWeights_pos hover hweight hcovered)).mpr ?_⟩
  omega

/-- R55: the next round stands at the quotient of this one. -/
theorem Reached.next (hover : surplus < (l.map Share.need).sum) (hweight : ∀ a ∈ l, 1 ≤ a.weight) {p : Nat}
    (h : Reached surplus l p) : Reached surplus l (quotientAt surplus p l) := by
  obtain ⟨hwithin, hle⟩ := quotientAt_mono hover hweight h.within h.le_quotient le_rfl
  refine ⟨hwithin, hle, fun k hk => ?_⟩
  rcases lt_or_ge k p with hkp | hpk
  · exact h.below k hkp
  · exact hk.trans_le (quotientAt_mono hover hweight h.within hpk hk.le).2

end

/-! ### The shares at a level -/

/-- A share when the shares of level `q` have been satisfied and the others given nothing. -/
def Share.settle (q : Nat) (a : Share) : Share := if a.need ≤ q * a.weight then a.give a.need else a

/-- A share when those of level `q` have been satisfied and the others given `q` for each unit of weight. -/
def Share.pour (q : Nat) (a : Share) : Share := a.give (min a.need (q * a.weight))

@[simp] theorem Share.settle_weight (q : Nat) (a : Share) : (a.settle q).weight = a.weight := by
  unfold Share.settle; split <;> rfl

theorem Share.settle_of_le {q : Nat} {a : Share} (h : a.need ≤ q * a.weight) : a.settle q = a.give a.need := if_pos h

theorem Share.settle_of_lt {q : Nat} {a : Share} (h : q * a.weight < a.need) : a.settle q = a := if_neg (not_le.mpr h)

@[simp] theorem Share.unsatisfied_give_need (a : Share) : (a.give a.need).unsatisfied = false := by
  simp [Share.unsatisfied, Share.give]

theorem Share.settle_zero (a : Share) : a.settle 0 = a := by
  obtain ⟨w, n, r⟩ := a
  rcases Nat.eq_zero_or_pos n with rfl | h
  · rfl
  · exact Share.settle_of_lt (by simpa using h)

theorem Share.unsatisfied_settle (q : Nat) (a : Share) : (a.settle q).unsatisfied = decide (q * a.weight < a.need) := by
  rcases le_or_gt a.need (q * a.weight) with h | h
  · simp [Share.settle_of_le h, h]
  · simp [Share.settle_of_lt h, h, Share.unsatisfied, Nat.zero_lt_of_lt h]

/-- What the level `q` satisfies that the level `p` did not. -/
theorem Share.satisfiedBy_settle (p q : Nat) (a : Share) :
    (a.settle p).satisfiedBy q = (decide (p * a.weight < a.need) && decide (a.need ≤ q * a.weight)) := by
  rw [Share.satisfiedBy, Share.unsatisfied_settle]
  rcases le_or_gt a.need (p * a.weight) with h | h
  · simp [not_lt.mpr h]
  · simp [Share.settle_of_lt h]

/-- R55: satisfying the shares of the quotient `q` takes those of a lower level to the level `q`. -/
theorem Share.settle_settle {p q : Nat} (hpq : p ≤ q) (a : Share) :
    (if (a.settle p).satisfiedBy q then (a.settle p).give (a.settle p).need else a.settle p) = a.settle q := by
  have hmul := Nat.mul_le_mul_right a.weight hpq
  rw [Share.satisfiedBy_settle]
  rcases le_or_gt a.need (p * a.weight) with hp | hp
  · simp [not_lt.mpr hp, Share.settle_of_le hp, Share.settle_of_le (hp.trans hmul)]
  · rcases le_or_gt a.need (q * a.weight) with hq | hq
    · simp [hp, hq, Share.settle_of_lt hp, Share.settle_of_le hq]
    · simp [not_le.mpr hq, Share.settle_of_lt hp, Share.settle_of_lt hq]

theorem weightSum_settle (q : Nat) (l : List Share) : weightSum (l.map (Share.settle q)) = openWeights q l := by
  unfold weightSum openWeights
  simp [List.filter_map, List.map_map, Function.comp_def, Share.unsatisfied_settle]

theorem sum_received_settle (q : Nat) (l : List Share) :
    ((l.map (Share.settle q)).map Share.received).sum = (l.map Share.received).sum + metNeeds q l := by
  rw [metNeeds, ← sum_received_give (fun a => decide (a.need ≤ q * a.weight))]
  simp only [decide_eq_true_eq]
  rfl

theorem map_settle_settle {p q : Nat} (hpq : p ≤ q) (l : List Share) :
    ((l.map (Share.settle p)).map fun a => if a.satisfiedBy q then a.give a.need else a) = l.map (Share.settle q) := by
  rw [List.map_map]
  exact List.map_congr_left fun a _ => Share.settle_settle hpq a

/-- What a round hands out takes the needs met at its level to those met at its quotient. -/
theorem metNeeds_add_handed {p q : Nat} (hpq : p ≤ q) (l : List Share) :
    metNeeds p l + (((l.map (Share.settle p)).filter (Share.satisfiedBy q)).map Share.need).sum = metNeeds q l := by
  have hround := sum_received_give (Share.satisfiedBy q) Share.need (l.map (Share.settle p))
  rw [map_settle_settle hpq, sum_received_settle, sum_received_settle] at hround
  omega

/-- In a round that satisfies no share, the quotient satisfies what the level did. -/
theorem met_iff_of_none_satisfied {p q : Nat} {l : List Share} (hpq : p ≤ q)
    (hnone : ¬ (l.map (Share.settle p)).any (Share.satisfiedBy q) = true) :
    ∀ a ∈ l, (a.need ≤ p * a.weight ↔ a.need ≤ q * a.weight) := by
  intro a ha
  refine ⟨fun h => h.trans (Nat.mul_le_mul_right _ hpq), fun h => ?_⟩
  by_contra hp
  refine hnone (List.any_eq_true.mpr ⟨_, List.mem_map_of_mem ha, ?_⟩)
  rw [Share.satisfiedBy_settle, decide_eq_true (not_le.mp hp), decide_eq_true h]
  rfl

theorem metNeeds_congr {p q : Nat} {l : List Share} (h : ∀ a ∈ l, (a.need ≤ p * a.weight ↔ a.need ≤ q * a.weight)) :
    metNeeds p l = metNeeds q l :=
  congrArg (fun m => (m.map Share.need).sum) (List.filter_congr fun a ha => by simp [h a ha])

theorem openWeights_congr {p q : Nat} {l : List Share}
    (h : ∀ a ∈ l, (a.need ≤ p * a.weight ↔ a.need ≤ q * a.weight)) : openWeights p l = openWeights q l :=
  congrArg (fun m => (m.map Share.weight).sum) (List.filter_congr fun a ha => by simpa using not_congr (h a ha))

/-- A round that satisfies no share gives each unsatisfied one its part of the quotient (R55). -/
theorem map_pour_of_none_satisfied {p q : Nat} {l : List Share}
    (h : ∀ a ∈ l, (a.need ≤ p * a.weight ↔ a.need ≤ q * a.weight)) :
    ((l.map (Share.settle p)).map fun a => if a.unsatisfied then a.give (q * a.weight) else a) =
      l.map (Share.pour q) := by
  rw [List.map_map]
  refine List.map_congr_left fun a ha => ?_
  rw [Function.comp_apply, Share.unsatisfied_settle, Share.pour]
  rcases le_or_gt a.need (p * a.weight) with hp | hp
  · rw [Share.settle_of_le hp, min_eq_left ((h a ha).mp hp)]
    simp [not_lt.mpr hp]
  · have hq : q * a.weight < a.need := not_le.mp fun hq => absurd ((h a ha).mpr hq) (not_le.mpr hp)
    rw [Share.settle_of_lt hp, min_eq_right hq.le]
    simp [hp]

/-- Satisfying a share leaves fewer unsatisfied. -/
theorem open_length_lt {p q : Nat} (hpq : p ≤ q) {l : List Share} {a : Share} (ha : a ∈ l) (hp : p * a.weight < a.need)
    (hq : a.need ≤ q * a.weight) :
    (l.filter fun a => decide (q * a.weight < a.need)).length <
      (l.filter fun a => decide (p * a.weight < a.need)).length := by
  have hsub : l.filter (fun a => decide (q * a.weight < a.need)) =
      (l.filter fun a => decide (p * a.weight < a.need)).filter fun a => decide (q * a.weight < a.need) := by
    rw [List.filter_filter]
    refine List.filter_congr fun b _ => ?_
    have := Nat.mul_le_mul_right b.weight hpq
    by_cases hb : q * b.weight < b.need <;> simp [hb]
    omega
  rw [hsub, List.length_filter_lt_length_iff_exists]
  exact ⟨a, List.mem_filter.mpr ⟨ha, by simpa using hp⟩, by simpa using hq⟩

/-- R55: from a level they come to, the rounds end at the first level that is its own quotient, with the remainder pass
over shares given that quotient. -/
theorem surplusRounds_settle {surplus : Nat} {l : List Share} (hover : surplus < (l.map Share.need).sum)
    (hweight : ∀ a ∈ l, 1 ≤ a.weight) (fuel p : Nat) (hp : Reached surplus l p)
    (hfuel : (l.filter fun a => decide (p * a.weight < a.need)).length < fuel) :
    ∃ q, Reached surplus l q ∧ q = quotientAt surplus q l ∧
      surplusRounds fuel (surplus - metNeeds p l) (l.map (Share.settle p)) =
        remainderPass (surplus - metNeeds q l - q * openWeights q l) (l.map (Share.pour q)) := by
  induction fuel generalizing p with
  | zero => omega
  | succ fuel ih =>
    have hpos := openWeights_pos hover hweight hp.within
    have hround := surplusRounds_succ fuel (surplus - metNeeds p l) (l.map (Share.settle p))
    rw [weightSum_settle, if_neg hpos.ne', ← quotientAt] at hround
    split at hround
    · next hsome =>
      obtain ⟨_, hmem, hsat⟩ := List.any_eq_true.mp hsome
      obtain ⟨a, ha, rfl⟩ := List.mem_map.mp hmem
      rw [Share.satisfiedBy_settle, Bool.and_eq_true, decide_eq_true_eq, decide_eq_true_eq] at hsat
      have hfewer := open_length_lt hp.le_quotient ha hsat.1 hsat.2
      rw [map_settle_settle hp.le_quotient, Nat.sub_sub, metNeeds_add_handed hp.le_quotient] at hround
      rw [hround]
      exact ih _ (hp.next hover hweight) (by omega)
    · next hnone =>
      have hsame := met_iff_of_none_satisfied hp.le_quotient hnone
      refine ⟨quotientAt surplus p l, hp.next hover hweight, ?_, ?_⟩
      · conv_lhs => rw [quotientAt, metNeeds_congr hsame, openWeights_congr hsame, ← quotientAt]
      · rw [hround, map_pour_of_none_satisfied hsame, ← metNeeds_congr hsame, ← openWeights_congr hsame]

/-- R54, R55: Stage 4 where the surplus does not hold the needs. -/
theorem surplusShares_of_over {surplus : Nat} {l : List Share} (hover : surplus < (l.map Share.need).sum)
    (hweight : ∀ a ∈ l, 1 ≤ a.weight) :
    ∃ q, Reached surplus l q ∧ q = quotientAt surplus q l ∧
      surplusShares surplus l =
        remainderPass (surplus - metNeeds q l - q * openWeights q l) (l.map (Share.pour q)) := by
  have hzero : metNeeds 0 l = 0 :=
    List.sum_eq_zero fun n hn => by
      obtain ⟨a, ha, rfl⟩ := List.mem_map.mp hn
      simpa using (List.mem_filter.mp ha).2
  have hstart : Reached surplus l 0 := ⟨by omega, Nat.zero_le _, fun k hk => absurd hk (Nat.not_lt_zero k)⟩
  obtain ⟨q, hq, hfix, hrun⟩ := surplusRounds_settle hover hweight (l.length + 1) 0 hstart
    (Nat.lt_succ_of_le (List.length_filter_le ..))
  have hself : l.map (Share.settle 0) = l := (List.map_congr_left fun a _ => a.settle_zero).trans (List.map_id l)
  rw [hzero, Nat.sub_zero, hself] at hrun
  exact ⟨q, hq, hfix, (if_neg (not_le.mpr hover)).trans hrun⟩

/-! ## Stage 4: the remainder pass over a snapshot (R56) -/

/-- R56: over shares in ascending handle order, each is given its part of the remainder that the parts of the lower
handles leave. -/
theorem remainderPass_map (g : Snap → Share) (r : Nat) {l : List Snap} (hasc : (l.map (·.handle)).Pairwise (· < ·)) :
    ∃ part : Snap → Nat, remainderPass r (l.map g) = l.map (fun e => (g e).give (part e)) ∧
      ∀ e ∈ l, part e = (g e).part (r - ((l.filter fun o => decide (o.handle < e.handle)).map part).sum) := by
  induction l generalizing r with
  | nil => exact ⟨fun _ => 0, rfl, by simp⟩
  | cons a l ih =>
    rw [List.map_cons, List.pairwise_cons, List.forall_mem_map] at hasc
    obtain ⟨hfirst, hasc⟩ := hasc
    obtain ⟨part, hrun, hpart⟩ := ih (r - (g a).part r) hasc
    have hne : ∀ e ∈ l, e ≠ a := fun e he h => absurd (hfirst e he) (h ▸ lt_irrefl _)
    have hrest : ∀ e ∈ l, Function.update part a ((g a).part r) e = part e := fun e he =>
      Function.update_of_ne (hne e he) ..
    refine ⟨Function.update part a ((g a).part r), ?_, ?_⟩
    · rw [List.map_cons, remainderPass_cons, hrun, List.map_cons, Function.update_self]
      exact congrArg _ (List.map_congr_left fun e he => by rw [hrest e he])
    · intro e he
      rcases List.mem_cons.mp he with rfl | he
      · have hnone : l.filter (fun o => decide (o.handle < e.handle)) = [] :=
          List.filter_eq_nil_iff.mpr fun o ho => by simpa using (hfirst o ho).le
        simp [hnone]
      · have hsum : ((l.filter fun o => decide (o.handle < e.handle)).map (Function.update part a ((g a).part r))) =
            (l.filter fun o => decide (o.handle < e.handle)).map part :=
          List.map_congr_left fun o ho => hrest o (List.mem_of_mem_filter ho)
        rw [hrest e he, hpart e he, List.filter_cons_of_pos (by simpa using hfirst e he), List.map_cons, List.sum_cons,
          hsum, Function.update_self, Nat.sub_sub]

/-- Terms that are zero outside the filter add nothing. -/
theorem sum_map_filter_of_zero {α : Type} {c : α → Bool} {f : α → Nat} {l : List α}
    (h : ∀ a ∈ l, c a = false → f a = 0) : ((l.filter c).map f).sum = (l.map f).sum := by
  induction l with
  | nil => rfl
  | cons a l ih =>
    have hrest := ih fun b hb => h b (List.mem_cons_of_mem a hb)
    cases hc : c a with
    | true => simp [hc, hrest]
    | false => simp [hc, hrest, h a List.mem_cons_self hc]

/-! ## The level of a handle -/

/-- The target Stage 3 or Stage 4 leaves the allotment of a handle; 0 where the snapshot has none. -/
def Service.levelOf (v : Service) (h : Handle) : Nat := ((v.levelled.find? fun p => p.1.handle == h).map (·.2)).getD 0

section
variable {v : Service}

theorem Service.levelOf_of_mem (hasc : (v.snaps.map (·.handle)).Pairwise (· < ·)) {p : Snap × Nat}
    (hp : p ∈ v.levelled) : v.levelOf p.1.handle = p.2 := by
  have hnodup : (v.levelled.map fun p => p.1.handle).Nodup := by
    rw [← v.levelled_map_fst, List.map_map] at hasc
    exact hasc.imp ne_of_lt
  have hfound : v.levelled.find? (fun x => x.1.handle == p.1.handle) = some p := by
    cases hf : v.levelled.find? fun x => x.1.handle == p.1.handle with
    | none => exact absurd (beq_self_eq_true p.1.handle) (List.find?_eq_none.mp hf p hp)
    | some x =>
      exact congrArg some (List.inj_on_of_nodup_map hnodup (List.mem_of_find?_eq_some hf) hp
        (by simpa using List.find?_some hf))
  rw [Service.levelOf, hfound]
  rfl

theorem Service.levelOf_of_map (hasc : (v.snaps.map (·.handle)).Pairwise (· < ·)) {t : Snap → Nat}
    (h : v.levelled = v.snaps.map fun e => (e, t e)) {e : Snap} (he : e ∈ v.snaps) : v.levelOf e.handle = t e :=
  Service.levelOf_of_mem hasc (p := (e, t e)) (h ▸ List.mem_map_of_mem he)

/-- R57: a member of a pair has the smaller of the two levels. -/
theorem Service.target_of_pair (hasc : (v.snaps.map (·.handle)).Pairwise (· < ·)) {p : Snap × Nat} (hp : p ∈ v.targets)
    {e : Snap} (he : e ∈ v.snaps) (hpe : p.1.partner = some e.handle) (hep : e.partner = some p.1.handle) :
    p.2 = min (v.levelOf p.1.handle) (v.levelOf e.handle) := by
  rw [Service.targets_eq] at hp
  obtain ⟨x, hx, rfl⟩ := List.mem_map.mp hp
  dsimp only at hpe hep ⊢
  rw [pairedTarget, Service.levelOf_of_mem hasc hx]
  cases hpt : partnerTarget v.levelled x.1 with
  | none =>
    rw [← v.levelled_map_fst] at he
    obtain ⟨y, hy, rfl⟩ := List.mem_map.mp he
    exact absurd hep (partnerTarget_eq_none.mp hpt y hy hpe)
  | some t =>
    obtain ⟨y, hy, hxy, -, rfl⟩ := partnerTarget_eq_some hpt
    rw [Option.some.inj (hpe.symm.trans hxy), Service.levelOf_of_mem hasc hy]
    rfl

/-- R57: an allotment that is in no pair of the snapshot has its level. -/
theorem Service.target_of_unpaired (hasc : (v.snaps.map (·.handle)).Pairwise (· < ·)) {p : Snap × Nat}
    (hp : p ∈ v.targets) (hno : ∀ e ∈ v.snaps, p.1.partner = some e.handle → e.partner ≠ some p.1.handle) :
    p.2 = v.levelOf p.1.handle := by
  rw [Service.targets_eq] at hp
  obtain ⟨x, hx, rfl⟩ := List.mem_map.mp hp
  have hnone : partnerTarget v.levelled x.1 = none :=
    partnerTarget_eq_none.mpr fun y hy => hno y.1 (v.levelled_map_fst ▸ List.mem_map_of_mem hy)
  dsimp only
  rw [pairedTarget, hnone, Service.levelOf_of_mem hasc hx]
  rfl

/-- R54: where the needs fit the surplus, the level is the want. -/
theorem Service.levelOf_of_fit (hasc : (v.snaps.map (·.handle)).Pairwise (· < ·)) (hfloors : v.floors ≤ v.budget)
    (hfit : (v.snaps.map fun e => (v.startShare e).need).sum ≤ v.budget - v.floors) {e : Snap} (he : e ∈ v.snaps) :
    v.levelOf e.handle = e.want v.warmDerate v.hotDerate := by
  have hshares : v.shares = v.snaps.map fun e => (v.startShare e).give (v.startShare e).need := by
    have hsum : ((v.snaps.map v.startShare).map (·.need)).sum ≤ v.budget - v.floors := by rwa [List.map_map]
    rw [Service.shares, surplusShares, if_pos hsum, List.map_map]
    rfl
  rw [← v.effFloor_add_need]
  refine Service.levelOf_of_map hasc (t := fun e => e.effFloor + (v.startShare e).need) ?_ he
  rw [Service.levelled_of_not_short hfloors, hshares, ← List.map_prod_left_eq_zip, List.map_map]
  exact List.map_congr_left fun e _ => by simp [Share.give]

/-! ### The levels of the rounds -/

/-- The allotments of the snapshot that the level `q` satisfies. -/
def Service.satisfied (v : Service) (q : Nat) : List Snap :=
  v.snaps.filter fun e => decide ((v.startShare e).need ≤ q * e.weight)

/-- The allotments of the snapshot that the level `q` does not satisfy. -/
def Service.unsatisfied (v : Service) (q : Nat) : List Snap :=
  v.snaps.filter fun e => decide (q * e.weight < (v.startShare e).need)

theorem Service.sum_satisfied (v : Service) (q : Nat) :
    ((v.satisfied q).map fun e => (v.startShare e).need).sum = metNeeds q (v.snaps.map v.startShare) := by
  rw [metNeeds, List.filter_map, List.map_map]; rfl

theorem Service.sum_unsatisfied (v : Service) (q : Nat) :
    ((v.unsatisfied q).map (·.weight)).sum = openWeights q (v.snaps.map v.startShare) := by
  rw [openWeights, List.filter_map, List.map_map]; rfl

/-- The quotient `q` that the rounds of a snapshot end at, and the remainder it leaves (R55, R56). -/
def Service.remainderAt (v : Service) (q : Nat) : Nat :=
  v.budget - v.floors - metNeeds q (v.snaps.map v.startShare) - q * openWeights q (v.snaps.map v.startShare)

/-- What an allotment that the level `q` leaves unsatisfied is given of the remainder, by its level: nothing to one the
level satisfies. -/
structure Service.PartsAt (v : Service) (q : Nat) (part : Snap → Nat) : Prop where
  level : ∀ e ∈ v.snaps, v.levelOf e.handle = e.effFloor + min (v.startShare e).need (q * e.weight) + part e
  part : ∀ e ∈ v.snaps, part e = ((v.startShare e).pour q).part
    (v.remainderAt q - ((v.snaps.filter fun o => decide (o.handle < e.handle)).map part).sum)

/-- R55, R56: where the needs are above the surplus, the rounds end at a level that is its own quotient. -/
theorem Service.rounds_end (hasc : (v.snaps.map (·.handle)).Pairwise (· < ·)) (hweight : ∀ e ∈ v.snaps, 1 ≤ e.weight)
    (hfloors : v.floors ≤ v.budget)
    (hover : v.budget - v.floors < (v.snaps.map fun e => (v.startShare e).need).sum) :
    ∃ q, Reached (v.budget - v.floors) (v.snaps.map v.startShare) q ∧
      0 < openWeights q (v.snaps.map v.startShare) ∧
      q = quotientAt (v.budget - v.floors) q (v.snaps.map v.startShare) ∧ ∃ part, v.PartsAt q part := by
  have hover : v.budget - v.floors < ((v.snaps.map v.startShare).map Share.need).sum := by rwa [List.map_map]
  have hweight : ∀ a ∈ v.snaps.map v.startShare, 1 ≤ a.weight := List.forall_mem_map.mpr hweight
  obtain ⟨q, hq, hfix, hrun⟩ := surplusShares_of_over hover hweight
  refine ⟨q, hq, openWeights_pos hover hweight hq.within, hfix, ?_⟩
  rw [List.map_map, ← Service.remainderAt, ← Service.shares] at hrun
  obtain ⟨part, hpass, hpart⟩ := remainderPass_map (Share.pour q ∘ v.startShare) (v.remainderAt q) hasc
  refine ⟨part, fun e he => ?_, hpart⟩
  refine Service.levelOf_of_map hasc
    (t := fun e => e.effFloor + min (v.startShare e).need (q * e.weight) + part e) ?_ he
  rw [Service.levelled_of_not_short hfloors, hrun, hpass, ← List.map_prod_left_eq_zip, List.map_map]
  refine List.map_congr_left fun e _ => ?_
  simp [Share.pour, Share.give, Nat.add_assoc]

section
variable {q : Nat} {part : Snap → Nat}

theorem Service.PartsAt.part_of_satisfied (h : v.PartsAt q part) {e : Snap} (he : e ∈ v.snaps)
    (hq : (v.startShare e).need ≤ q * e.weight) : part e = 0 := by
  have hnone : ((v.startShare e).pour q).need = 0 := by
    rw [Share.pour, Service.startShare_weight, min_eq_left hq]; exact Nat.sub_self _
  rw [h.part e he, Share.part, Share.unsatisfied, hnone]
  rfl

theorem Service.PartsAt.part_of_unsatisfied (h : v.PartsAt q part) {e : Snap} (he : e ∈ v.snaps)
    (hq : q * e.weight < (v.startShare e).need) :
    part e = min e.weight (min
      (v.remainderAt q - ((v.snaps.filter fun o => decide (o.handle < e.handle)).map part).sum)
      ((v.startShare e).need - q * e.weight)) := by
  have hneed : ((v.startShare e).pour q).need = (v.startShare e).need - q * e.weight := by
    rw [Share.pour, Service.startShare_weight, min_eq_right hq.le]; rfl
  rw [h.part e he, Share.part, Share.unsatisfied, hneed, decide_eq_true (by omega), if_pos rfl]
  rfl

/-- R55: the satisfied allotments have their wants. -/
theorem Service.PartsAt.level_of_satisfied (h : v.PartsAt q part) {e : Snap} (he : e ∈ v.satisfied q) :
    v.levelOf e.handle = e.want v.warmDerate v.hotDerate := by
  obtain ⟨he, hq⟩ := List.mem_filter.mp he
  have hq := of_decide_eq_true hq
  rw [h.level e he, h.part_of_satisfied he hq, min_eq_left hq, Nat.add_zero, v.effFloor_add_need]

theorem Service.PartsAt.level_sub_of_unsatisfied (h : v.PartsAt q part) {e : Snap} (he : e ∈ v.unsatisfied q) :
    v.levelOf e.handle - (e.effFloor + q * e.weight) = part e := by
  obtain ⟨he, hq⟩ := List.mem_filter.mp he
  rw [h.level e he, min_eq_right (of_decide_eq_true hq).le, Nat.add_sub_cancel_left]

/-- What the unsatisfied allotments before a handle hold above their parts of the quotient is what the pass gave. -/
theorem Service.PartsAt.sum_given (h : v.PartsAt q part) (e : Snap) :
    (((v.unsatisfied q).filter fun o => decide (o.handle < e.handle)).map fun o =>
      v.levelOf o.handle - (o.effFloor + q * o.weight)).sum =
      ((v.snaps.filter fun o => decide (o.handle < e.handle)).map part).sum := by
  rw [List.map_congr_left fun o ho => h.level_sub_of_unsatisfied (List.mem_of_mem_filter ho), Service.unsatisfied,
    List.filter_comm]
  refine sum_map_filter_of_zero fun o ho hopen => h.part_of_satisfied (List.mem_of_mem_filter ho) ?_
  simpa using hopen

/-- R55, R56: an unsatisfied allotment has its part of the quotient and its part of the remainder. -/
theorem Service.PartsAt.level_of_unsatisfied (h : v.PartsAt q part) {e : Snap} (he : e ∈ v.unsatisfied q) :
    v.levelOf e.handle = e.effFloor + q * e.weight + min e.weight (min
      (v.remainderAt q - (((v.unsatisfied q).filter fun o => decide (o.handle < e.handle)).map fun o =>
        v.levelOf o.handle - (o.effFloor + q * o.weight)).sum) ((v.startShare e).need - q * e.weight)) := by
  obtain ⟨hmem, hq⟩ := List.mem_filter.mp he
  have hq := of_decide_eq_true hq
  rw [h.sum_given, ← h.part_of_unsatisfied hmem hq, h.level e hmem, min_eq_right hq.le]

end
end

/-! ## The bounds of R58 -/

/-- R58: a value from idle to the want keeps the bounds of its row of R52 and of its ce. -/
theorem Snap.bounds_of_le_want {e : Snap} {warm hot t : Nat} (hw : warm ≤ 100) (hh : hot ≤ 100) (hf : e.idle ≤ e.floor)
    (hc : e.floor ≤ e.ceiling) (hidle : e.idle ≤ t) (hwant : t ≤ e.want warm hot) :
    t ≤ e.ceiling ∧
      t ≤ (if e.eff = .critical then e.idle else max e.floor (e.ceiling * derateFor warm hot e.eff / 100)) ∧
      (e.tag = .retiring ∨ e.grant.inPark = true ∨ e.eff = .critical → t = e.idle) ∧
      (e.grant = .fallen ∨ e.grant = .unlinked → t ≤ e.floor) := by
  have hce := hwant.trans (Snap.want_le_effectiveCeiling hf)
  have hrow : e.tag = .retiring ∨ e.grant.inPark = true ∨ e.eff = .critical → t = e.idle := fun h => by
    have hi : e.idles = true := by simpa [Snap.idles, or_assoc] using h
    rw [Snap.want_of_idles hi] at hwant
    omega
  refine ⟨hce.trans (effectiveCeiling_le hc (derateFor_le hw hh _)), ?_, hrow,
    fun h => hwant.trans (Snap.want_le_floor_of_offLink (GrantState.offLink_iff.mpr h) hf)⟩
  split
  · next hcritical => exact (hrow (Or.inr (Or.inr hcritical))).le
  · exact hce

end Sys2Proof.Machine

namespace Sys2Proof.Proofs
open Sys2Proof.Machine

/-- Settles O59: the bounds by those of each stage, the levels by the rounds' climb to their first own quotient. -/
theorem targetsStayWithinBounds : Obligations.TargetsStayWithinBounds := by
  intro v hw hh hcontract hpair factor
  have hfactor : factor = derateFor v.warmDerate v.hotDerate := by funext x; cases x <;> rfl
  have hfloor : ∀ e ∈ v.snaps, e.idle ≤ e.floor := fun e he => (hcontract e he).2.1
  clear_value factor
  subst hfactor
  refine ⟨v.targets_map_fst, fun p hp => ?_, fun h => v.sum_targets_le.trans (Service.sum_levelled_le hfloor h),
    fun hs hi p hp => Service.targets_idle hfloor hpair hs hi hp, ?_⟩
  · obtain ⟨hmem, hidle, hwant⟩ := Service.targets_between hfloor hpair hp
    obtain ⟨-, hf, hc, -⟩ := hcontract p.1 hmem
    exact ⟨hidle, Snap.bounds_of_le_want hw hh hf hc hidle hwant⟩
  intro idles fe want need f i surplus
  have hfe : fe = Snap.effFloor := by
    funext e; simp only [fe, idles, ← Snap.idles_iff, Snap.effFloor]
  have hwant : want = Snap.want v.warmDerate v.hotDerate := by
    funext e; simp only [want, idles, ← Snap.idles_iff, ← GrantState.offLink_iff]; rfl
  have hneed : need = fun e => (v.startShare e).need := by
    funext e; simp only [need, hfe, hwant]; rfl
  have hf : f = v.floors := by simp only [f, hfe]; rfl
  have hi : i = v.idles := rfl
  have hsurplus : surplus = v.budget - v.floors := by simp only [surplus, hf]
  clear_value surplus i f need want fe
  subst hfe hwant hneed hf hi hsurplus
  refine ⟨rfl, fun hasc hweight => ⟨v.levelOf, fun p hp =>
    ⟨fun e he => Service.target_of_pair hasc hp he, Service.target_of_unpaired hasc hp⟩,
    fun hshort e he => Service.levelOf_of_map hasc (Service.levelled_of_short hshort) he,
    fun hfloors hfit e he => Service.levelOf_of_fit hasc hfloors hfit he, fun hfloors hover => ?_⟩⟩
  obtain ⟨q, hq, hpos, hfix, part, hparts⟩ := Service.rounds_end hasc hweight hfloors hover
  intro unsatisfied satisfied weights left
  have hleft : ∀ k, left k = v.budget - v.floors - metNeeds k (v.snaps.map v.startShare) := fun k =>
    congrArg _ (v.sum_satisfied k)
  have hweights : ∀ k, weights k = openWeights k (v.snaps.map v.startShare) := v.sum_unsatisfied
  refine ⟨q, (v.sum_satisfied q).trans_le hq.within, hweights q ▸ hpos, ?_, fun k hk => ?_,
    fun e he => hparts.level_of_satisfied he, fun e he => ?_⟩
  · rw [hleft, hweights]; exact hfix
  · rw [hleft, hweights]; exact (hq.below k hk).ne
  · rw [hleft, hweights]; exact hparts.level_of_unsatisfied he

end Sys2Proof.Proofs
end

section
/-! PROOFS. SET_STATION (R144): the station it names, the RANGE check of its interval, its three verdicts, and from
them the statement on the pending interval. -/

namespace Sys2Proof.Machine

/-! ## A command taken at the port -/

/-- Applied in whatever classes, the conclusion leaves everything but the port to the application. -/
theorem State.conclude_verdictOf_sameButPort (code : Byte) (p : Option Byte) (a : Adjusted) (payload : List Byte)
    (s t : State) : t.SameButPort (s.conclude code p (verdictOf a payload t)) := by
  unfold verdictOf
  split <;> rfl

/-- SET_STATION is taken where the machine accepts commands, and concluded by its verdict (R173). -/
theorem completes_setStation {s : State} {b i : Byte} {P : State → Prop} (hacc : s.Accepting)
    (h : ∀ frame, P ((s.beginTake frame).conclude 0x03 (some b) (judgeSetStation b i (s.beginTake frame)))) :
    Completes (.setStation b i) s P :=
  ⟨_, congrArg Host.Outcome.next (takeCommand_taken hacc), h _⟩

/-! ## The operands -/

theorem stationNoOf_eq_none {b : Byte} (h : 6 ≤ b.toNat) : stationNoOf b = none := dif_neg (not_lt.mpr h)

@[simp] theorem stationNoOf_byteOf (st : StationNo) : stationNoOf (byteOf st.val) = some st := by
  have hval : (byteOf st.val).toNat = st.val := Nat.mod_eq_of_lt (by omega)
  rw [stationNoOf, dif_pos (hval.trans_lt st.isLt)]
  exact congrArg some (Fin.ext hval)

/-- An interval byte is never above 255, so only 0 and 1 are out of range, and refuse refuses them (R144). -/
theorem rangeCheck_interval_refused {i : Byte} (h : i.toNat < 2) :
    rangeCheck false 2 255 .interval i.toNat = .error .interval :=
  rangeCheck_outside (by omega)

theorem rangeCheck_interval_passed {adjust : Bool} {i : Byte} (h : ¬(i.toNat < 2 ∧ adjust = false)) :
    rangeCheck adjust 2 255 .interval i.toNat = .ok (max 2 i.toNat, decide (i.toNat < 2)) := by
  by_cases hlow : i.toNat < 2
  · have hadjust : adjust = true := by simpa [hlow] using h
    rw [rangeCheck_outside (by omega), if_pos hadjust, if_pos hlow, max_eq_left hlow.le, decide_eq_true hlow]
  · have hwithin : 2 ≤ i.toNat ∧ i.toNat ≤ 255 := ⟨by omega, Nat.le_of_lt_succ i.isLt⟩
    rw [rangeCheck_within hwithin, max_eq_right hwithin.1, decide_eq_false hlow]

/-! ## The verdicts -/

/-- What a station holds as pending once an interval is set: none where it is the one in effect (R144). -/
def Station.withPending (n : Nat) (r : Station) : Station :=
  { r with pendingInterval := if n = r.interval then none else some n }

theorem judgeSetStation_badNumber {b : Byte} (i : Byte) (s : State) (h : 6 ≤ b.toNat) :
    judgeSetStation b i s = .refused .badNumber := by
  rw [judgeSetStation, stationNoOf_eq_none h]

theorem judgeSetStation_interval (st : StationNo) {i : Byte} {s : State} (hlow : i.toNat < 2)
    (hrefuse : s.port.masks.range = false) : judgeSetStation (byteOf st.val) i s = .refused .interval := by
  simp only [judgeSetStation, stationNoOf_byteOf, hrefuse, rangeCheck_interval_refused hlow, Verdict.ofChecks]

theorem judgeSetStation_applied (st : StationNo) {i : Byte} {s : State}
    (h : ¬(i.toNat < 2 ∧ s.port.masks.range = false)) :
    judgeSetStation (byteOf st.val) i s =
      verdictOf ⟨decide (i.toNat < 2), false, false⟩ [] (s.updStation st (Station.withPending (max 2 i.toNat))) := by
  simp only [judgeSetStation, stationNoOf_byteOf, rangeCheck_interval_passed h, Verdict.ofChecks]
  rfl

end Sys2Proof.Machine

namespace Sys2Proof.Proofs
open Sys2Proof.Machine

/-- Settles O34, by the three verdicts of SET_STATION: the station's number, then its interval, then the change. -/
theorem setStationSetsPendingInterval : Obligations.SetStationSetsPendingInterval := by
  intro s b i hacc
  refine ⟨fun hnumber => completes_setStation hacc fun frame => ?_, ?_⟩
  · rw [judgeSetStation_badNumber i _ hnumber]
    exact State.conclude_refused ..
  rintro st rfl
  split
  · next hrefused =>
    obtain ⟨hlow, hrefuse⟩ := hrefused
    refine completes_setStation hacc fun frame => ?_
    rw [judgeSetStation_interval st hlow (by rwa [State.beginTake_masks])]
    exact State.conclude_refused ..
  · next hpassed =>
    refine completes_setStation hacc fun frame => ?_
    rw [judgeSetStation_applied st (by rwa [State.beginTake_masks])]
    exact ⟨State.conclude_applied _ _ _ _ _ _ _ rfl rfl, State.conclude_verdictOf_sameButPort ..⟩

end Sys2Proof.Proofs
end

section
/-! PROOFS. The ATTENTION output (R165): what each shared operation, each event and each command leaves of its law, and
from them the statement on every step. An operation either leaves the attention unit, the output and the reset line
alone, or changes the unit by `State.updAttention`, which re-evaluates the output. -/

namespace Sys2Proof.Machine

variable {s t : State}

/-! ## The attention unit and the runs of moves -/

/-- A change of the attention unit sets the law up, whatever was before (R165). -/
theorem State.updAttention_attentionLaw (f : AttentionUnit → AttentionUnit) (s : State) :
    (s.updAttention f).AttentionLaw := rfl

theorem State.raiseSled_attentionLaw (d : SledNo) (c : SledCause) (s : State) : (s.raiseSled d c).AttentionLaw :=
  s.updAttention_attentionLaw _

theorem State.lose_attentionLaw (d : SledNo) (s : State) : (s.lose d).AttentionLaw :=
  (s.giveUp d).raiseSled_attentionLaw d .lost

theorem State.GrantsOnly.attentionLaw (g : s.GrantsOnly t) (hs : s.AttentionLaw) : t.AttentionLaw := by
  rw [g]; exact hs

theorem State.Moves.attentionLaw {W : Allotment → Allotment → Prop} {req : Prop} (m : State.Moves W req s t)
    (hs : s.AttentionLaw) : t.AttentionLaw := m.grantsOnly.attentionLaw hs

/-! ## The shared operations -/

namespace State.AttentionLaw

theorem foldl {α : Type} {f : State → α → State} (hf : ∀ t a, t.AttentionLaw → (f t a).AttentionLaw)
    (l : List α) (hs : s.AttentionLaw) : (l.foldl f s).AttentionLaw :=
  List.foldlRecOn l f hs fun t ht a _ => hf t a ht

theorem unlessReset {f : State → State} (hs : s.AttentionLaw) (hf : (f s).AttentionLaw) :
    (unlessReset f s).AttentionLaw := by
  unfold Machine.unlessReset
  split <;> assumption

theorem putAllot (h : Handle) (r : Allotment) (hs : s.AttentionLaw) : (s.putAllot h r).AttentionLaw :=
  (s.putAllot_grantsOnly h r).attentionLaw hs

theorem modAllot (h : Handle) (f : Allotment → Allotment) (hs : s.AttentionLaw) : (s.modAllot h f).AttentionLaw := by
  unfold State.modAllot
  split
  · exact hs
  · exact hs.putAllot _ _

theorem requestNormalFor (d : SledNo) (hs : s.AttentionLaw) : (s.requestNormalFor d).AttentionLaw :=
  (s.requestNormalFor_acts d).attentionLaw hs

theorem retryIf (opened : Bool) (zo : Option ZoneNo) (hs : s.AttentionLaw) : (s.retryIf opened zo).AttentionLaw :=
  (s.retryIf_dispatches opened zo).attentionLaw hs

theorem invokeAll (l : List Handle) (hs : s.AttentionLaw) : (s.invokeAll l).AttentionLaw :=
  (s.invokeAll_dispatches l).attentionLaw hs

/-- The apportioner writes marks, requests, the service and the pointer alone (R45, R49). -/
theorem serveRequests (hs : s.AttentionLaw) : s.serveRequests.AttentionLaw := by
  rw [State.serveRequests_only]; exact hs

theorem freeAllot (h : Handle) (hs : s.AttentionLaw) : (s.freeAllot h).AttentionLaw := by
  unfold State.freeAllot
  split
  · exact hs
  · refine requestNormalFor _ ?_
    split <;> exact hs

/-! ## The completion of a recompute (R59 to R62) -/

theorem setMark (m : Bool) (h : Handle) (hs : s.AttentionLaw) : (s.setMark m h).AttentionLaw := by
  rw [State.setMark_only]; exact hs

/-- A completion may raise ZONE_SHORT; the marks it clears, the invocations and the next take leave the unit. -/
theorem complete (v : Service) (hs : s.AttentionLaw) : (s.complete v).AttentionLaw := by
  refine serveRequests (invokeAll _ (foldl (fun _ p ht => ht.setMark false p.1.handle) v.targets ?_))
  split
  · exact State.updAttention_attentionLaw _ _
  · exact (State.applyTargets_acts v.targets s).attentionLaw hs

/-! ## Thermal states (R97 to R102) -/

/-- A rise raises its cause, and what follows a change only requests and invokes (R100 to R102). -/
theorem consequences (d : SledNo) (old new : Thermal) (hs : s.AttentionLaw) :
    (s.consequences d old new).AttentionLaw := by
  unfold State.consequences
  split
  · cases new with
    | normal => exact hs
    | warm => exact requestNormalFor d (s.raiseSled_attentionLaw d .warm)
    | hot => exact (State.requestUrgentFor_acts d _).attentionLaw (s.raiseSled_attentionLaw d .hot)
    | critical =>
      exact ((State.requestUrgentFor_acts d _).trans (State.criticalAction_acts d _)).attentionLaw
        (s.raiseSled_attentionLaw d .critical)
  · exact hs.requestNormalFor d

theorem reviewEff (d : SledNo) (hs : s.AttentionLaw) : (s.reviewEff d).1.AttentionLaw := by
  unfold State.reviewEff
  dsimp only
  split
  · exact hs
  · exact consequences d _ _ hs

theorem hop (l : List SledNo) (hs : s.AttentionLaw) : (s.hop l).1.AttentionLaw :=
  List.foldlRecOn (motive := fun acc : State × List SledNo => acc.1.AttentionLaw) _ _ hs fun _ hacc c _ =>
    hacc.reviewEff c

theorem carry (n : Nat) (l : List SledNo) (hs : s.AttentionLaw) : (State.carry n l s).AttentionLaw := by
  induction n generalizing l s with
  | zero => exact hs
  | succ n ih => exact ih _ (hs.hop l)

theorem reviewChain (d : SledNo) (hs : s.AttentionLaw) : (s.reviewChain d).AttentionLaw := by
  unfold State.reviewChain
  split
  · exact (hs.reviewEff d).carry 3 [d]
  · exact hs

theorem setOwn (d : SledNo) (own : Thermal) (hs : s.AttentionLaw) : (s.setOwn d own).AttentionLaw := by
  unfold State.setOwn
  split
  · exact hs
  · exact reviewChain d hs

/-! ## The phases of a refresh event (R121 to R126, R142 to R145) -/

theorem fallRecord (h : Handle) (hs : s.AttentionLaw) : (s.fallRecord h).AttentionLaw := by
  unfold State.fallRecord
  repeat' split
  · exact hs
  · exact hs.freeAllot h
  · exact hs
  · exact hs.putAllot h _

theorem elapseFallback (d : SledNo) (hs : s.AttentionLaw) : (s.elapseFallback d).AttentionLaw := by
  have hfallen := foldl (fun _ h ht => ht.fallRecord h) (s.sled d).handles
    (s := s.updSled d fun r => { r with elapsed := true }) hs
  unfold State.elapseFallback
  dsimp only
  split
  · exact (hfallen.retryIf _ _).requestNormalFor d
  · exact hfallen.retryIf _ _

theorem advanceFallback (d : SledNo) (hs : s.AttentionLaw) : (s.advanceFallback d).AttentionLaw := by
  unfold State.advanceFallback
  dsimp only
  repeat' split
  · exact elapseFallback d hs
  · exact hs
  · exact hs

theorem advanceSilence (d : SledNo) (hs : s.AttentionLaw) : (s.advanceSilence d).AttentionLaw := by
  unfold State.advanceSilence State.judgeSilence
  repeat' split
  · exact State.lose_attentionLaw d _
  all_goals exact hs

theorem handEntry (d : SledNo) (e : Option Entry) (hs : s.AttentionLaw) : (s.handEntry d e).AttentionLaw :=
  (s.handEntry_grantsOnly d e).attentionLaw hs

theorem restate (held : Handle → Bool) (d : SledNo) (h : Handle) (hs : s.AttentionLaw) :
    (State.restate held d s h).AttentionLaw := by
  unfold State.restate
  repeat' split
  · exact hs
  · exact hs
  · exact hs
  · exact State.lose_attentionLaw d _
  · exact (hs.handEntry d _).putAllot h _
  · exact hs.handEntry d _

theorem restateSled (d : SledNo) (hs : s.AttentionLaw) : (s.restateSled d).AttentionLaw := by
  unfold State.restateSled
  split
  · exact foldl (fun _ h ht => ht.restate _ d h) _ hs
  · exact hs

theorem examineInterval (st : StationNo) (hs : s.AttentionLaw) : (s.examineInterval st).AttentionLaw := by
  unfold State.examineInterval
  repeat' split
  all_goals exact hs

theorem refreshEvent (st : StationNo) (hs : s.AttentionLaw) : (refreshEvent st s).AttentionLaw := by
  unfold Machine.refreshEvent
  split
  · exact hs
  · have hfallback := foldl (fun _ d ht => ht.advanceFallback d) (sledsOf st) hs
    have hsilence := foldl (fun _ d ht => ht.advanceSilence d) (sledsOf st) hfallback
    have hrestated := foldl (fun _ d ht => ht.restateSled d) (sledsOf st) hsilence
    exact (hrestated.examineInterval st).serveRequests

theorem loss (d : SledNo) (hs : s.AttentionLaw) : (loss d s).AttentionLaw := by
  unfold Machine.loss
  split
  · exact s.lose_attentionLaw d
  · exact hs

theorem goingSilent (d : SledNo) (hs : s.AttentionLaw) : (goingSilent d s).AttentionLaw := by
  unfold Machine.goingSilent
  split <;> exact hs

theorem fallback (d : SledNo) (hs : s.AttentionLaw) : (fallback d s).AttentionLaw := by
  unfold Machine.fallback
  split
  · exact (hs.elapseFallback d).serveRequests
  · exact hs

theorem transmissionStart (st : StationNo) (hs : s.AttentionLaw) : (transmissionStart st s).AttentionLaw := by
  unfold Machine.transmissionStart
  dsimp only
  split <;> exact hs

/-! ## The uplink events (R76, R88, R115 to R120) -/

theorem hearJoin (d : SledNo) (hs : s.AttentionLaw) : (s.hearJoin d).AttentionLaw := by
  unfold State.hearJoin
  split <;> exact hs

theorem refuseJoin (d : SledNo) (s : State) : (s.refuseJoin d).AttentionLaw :=
  (s.raiseSled_attentionLaw d .refused).hearJoin d

theorem welcome (d : SledNo) (channels : Nat) (hs : s.AttentionLaw) : (s.welcome d channels).AttentionLaw :=
  foldl (fun t h ht => (t.welcomeEntry_acts h).attentionLaw ht) _ hs

theorem link (d : SledNo) (channels : Nat) (hs : s.AttentionLaw) : (s.link d channels).AttentionLaw :=
  have hjoined := foldl (fun _ h ht => ht.modAllot h Allotment.joined) (s.sled d).handles (s := s.updSled d _) hs
  ((hjoined.welcome d channels).invokeAll _).requestNormalFor d

theorem rejoin (d : SledNo) (channels : Nat) (hs : s.AttentionLaw) : (s.rejoin d channels).AttentionLaw :=
  have hreset := foldl (fun _ h ht => ht.modAllot h Allotment.rejoined) (s.sled d).handles (s := s.dropFrames d) hs
  (hreset.link d channels).retryIf _ _

theorem takeJoin (d : SledNo) (channels : Byte) (hs : s.AttentionLaw) : (takeJoin d channels s).AttentionLaw := by
  unfold Machine.takeJoin
  split
  · exact refuseJoin d s
  · next p _ =>
    split
    · exact refuseJoin d s
    · split
      · exact refuseJoin d s
      · exact (hs.link d p.channels).serveRequests
      · exact (hs.link d p.channels).serveRequests
      all_goals
        split
        · exact (hs.rejoin d p.channels).serveRequests
        · exact hs.hearJoin d

theorem assess (d : SledNo) (ts : List Triple) (hs : s.AttentionLaw) : (s.assess d ts).AttentionLaw := by
  have hdemands := foldl (fun t h ht => (t.assessRecord_acts ts h).attentionLaw ht)
    ((s.updSled d fun r => { r with report := some ts }).sled d).handles
    (s := s.updSled d fun r => { r with report := some ts }) hs
  unfold State.assess State.assessThermal
  split
  · exact hdemands.setOwn d _
  · exact setOwn d _ (State.raiseSled_attentionLaw d .sensor _)

theorem takeReport (d : SledNo) (ts : List Triple) (hs : s.AttentionLaw) : (takeReport d ts s).AttentionLaw := by
  unfold Machine.takeReport
  dsimp only
  repeat' split
  · exact serveRequests (assess d ts hs)
  · exact hs
  · exact hs

/-- An acknowledgement moves grants, or frees the record whose RELEASE it answers (R77, R78). -/
theorem acknowledge {h : Handle} {r : Allotment} (hr : s.allot h = some r) (hs : s.AttentionLaw) :
    (s.acknowledge h r).AttentionLaw := by
  unfold State.acknowledge
  repeat' split
  · exact (hs.freeAllot h).retryIf _ _
  · exact hs
  · exact (s.ackGrant_dispatches h r hr).attentionLaw hs
  · exact (s.ackGrant_dispatches h r hr).attentionLaw hs
  · exact (s.ackPark_acts h r hr).attentionLaw hs
  · exact hs

theorem takePair (d : SledNo) (p : AckPair) (hs : s.AttentionLaw) : (s.takePair d p).AttentionLaw := by
  unfold State.takePair State.ackPair
  repeat' split
  · exact hs
  · exact hs
  · next hr _ => exact hs.acknowledge hr
  · exact hs
  · exact hs

theorem takeAck (d : SledNo) (ps : List AckPair) (hs : s.AttentionLaw) : (takeAck d ps s).AttentionLaw := by
  unfold Machine.takeAck
  split
  · exact serveRequests (foldl (fun _ p ht => ht.takePair d p) ps hs)
  · exact hs

theorem takeUplink (d : SledNo) (bytes : List Byte) (hs : s.AttentionLaw) : (takeUplink d bytes s).AttentionLaw := by
  unfold Machine.takeUplink
  split
  · exact hs.takeJoin _ _
  · exact hs.takeReport _ _
  · exact hs.takeAck _ _
  · exact hs
  · exact hs

/-! ## The timers and reset (R28 to R30, R102, R187) -/

theorem warmExpiry (d : SledNo) (hs : s.AttentionLaw) : (warmExpiry d s).AttentionLaw := by
  unfold Machine.warmExpiry
  split
  · exact hs
  · exact State.updAttention_attentionLaw _ _

theorem curtailEdge (z : ZoneNo) (level : Bool) (hs : s.AttentionLaw) : (curtailEdge z level s).AttentionLaw := by
  unfold Machine.curtailEdge
  split <;> exact hs

/-- A taken change of a curtail line raises CURTAIL_CHANGE (R29). -/
theorem takeCurtail (z : ZoneNo) (level : Bool) (s : State) : (s.takeCurtail z level).AttentionLaw :=
  have hraised : ((s.updZone z _).raiseCurtail z).AttentionLaw := State.updAttention_attentionLaw _ _
  serveRequests (retryIf _ _ hraised)

theorem persistenceExpiry (z : ZoneNo) (hs : s.AttentionLaw) : (persistenceExpiry z s).AttentionLaw := by
  unfold Machine.persistenceExpiry
  dsimp only
  repeat' split
  · exact takeCurtail z _ s
  all_goals exact hs

theorem recomputeCompletion (hs : s.AttentionLaw) : (recomputeCompletion s).AttentionLaw := by
  unfold Machine.recomputeCompletion
  split
  · exact hs
  · exact hs.complete _

/-- While RESET_N is low the output is released (R187). -/
theorem powerOnReset (s : State) : (powerOnReset s).AttentionLaw := rfl

theorem resetEnd (hs : s.AttentionLaw) : (resetEnd s).AttentionLaw := by
  unfold Machine.resetEnd
  split
  · exact State.updAttention_attentionLaw _ _
  · exact hs

end State.AttentionLaw

/-! ## What a management command applies -/

/-- The state a verdict applies, where it applies one, satisfies `P` (R177). -/
def Verdict.Satisfies (P : State → Prop) : Verdict → Prop
  | .refused _ => True
  | .done _ _ t => P t
  | .adjusted _ _ t => P t

theorem Verdict.satisfies_verdictOf {P : State → Prop} (a : Adjusted) (payload : List Byte) (ht : P t) :
    (verdictOf a payload t).Satisfies P := by
  unfold verdictOf
  split <;> exact ht

theorem Verdict.satisfies_ofChecks {P : State → Prop} {α : Type} (c : Except Detail α) {f : α → Verdict}
    (hf : ∀ a, (f a).Satisfies P) : (Verdict.ofChecks c f).Satisfies P := by
  cases c with
  | error d => trivial
  | ok a => exact hf a

/-- The checks and application of a command keep the law of the ATTENTION output. -/
def KeepsAttention (judge : State → Verdict) : Prop :=
  ∀ s : State, s.AttentionLaw → (judge s).Satisfies State.AttentionLaw

namespace State.AttentionLaw

/-! ### The table of allotments (R10, R13 to R18) -/

theorem firstGrant (h : Handle) (r : Allotment) (hs : s.AttentionLaw) : (s.firstGrant h r).AttentionLaw := by
  unfold State.firstGrant
  split
  · exact (s.place_grantsOnly h _ _).attentionLaw hs
  · exact hs

theorem applyInstall (i : Installation) (hs : s.AttentionLaw) : (s.applyInstall i).AttentionLaw :=
  have hentered : (s.enter i).AttentionLaw :=
    putAllot (s := { s with stack := s.stack.tail }) i.handle i.allotment hs
  serveRequests (hentered.firstGrant i.handle i.allotment)

theorem writeContract (h : Handle) (floor ceiling weight : Nat) (wake : Option Bool) (hs : s.AttentionLaw) :
    (s.writeContract h floor ceiling weight wake).AttentionLaw := by
  unfold State.writeContract
  repeat' split
  all_goals exact hs

theorem applyAmend (h : Handle) (r : Allotment) (a : Amendment) (wake : Option Bool) (hs : s.AttentionLaw) :
    (s.applyAmend h r a wake).AttentionLaw := by
  have hwritten := foldl (fun _ k ht => ht.writeContract k a.floor a.ceiling a.weight wake)
    (amendMembers h r.partner) hs
  have hacted := (s.afterAmend_acts (amendMembers h r.partner) _).attentionLaw hwritten
  unfold State.applyAmend
  refine serveRequests ?_
  split
  · exact hacted
  · exact hacted.requestNormalFor _

theorem applyTenant (tenant mask : Byte) (percent : Nat) (hs : s.AttentionLaw) :
    (s.applyTenant tenant mask percent).AttentionLaw := by
  unfold State.applyTenant
  refine serveRequests (foldl (fun t h ht => ?_) _
    ((s.afterAmend_acts _ _).attentionLaw (foldl (fun t h ht => ?_) _ hs)))
  · split
    · exact ht
    · exact ht.requestNormalFor _
  · split <;> exact ht

theorem setPartner (h : Handle) (p : Option Handle) (hs : s.AttentionLaw) : (s.setPartner h p).AttentionLaw := by
  unfold State.setPartner
  split <;> exact hs

theorem breakPair (r : Allotment) (hs : s.AttentionLaw) : (s.breakPair r).AttentionLaw := by
  unfold State.breakPair
  split
  · exact hs
  · exact hs.setPartner _ _

theorem retireLive (h : Handle) (r : Allotment) (hs : s.AttentionLaw) : (s.retireLive h r).AttentionLaw := by
  have hretiring := ((hs.breakPair r).putAllot h r.retire).requestNormalFor r.sled
  unfold State.retireLive
  split
  · exact (hretiring.freeAllot h).retryIf _ _
  · exact hretiring
  · exact (State.Moves.trans (.place h _ _ .refl) (State.invoke_dispatches h _)).attentionLaw hretiring

/-! ### Zones, sleds, the assessor and RESTART (R40, R107, R113, R114, R186) -/

theorem applyZone (z : ZoneNo) (c : ZoneSettings) (hs : s.AttentionLaw) : (s.applyZone z c).AttentionLaw :=
  have hset : (s.updZone z fun r =>
    ({ r with cb := c.cb, ob := c.ob, kb := c.kb, ramp := c.ramp, deadband := c.deadband }).rebudget).AttentionLaw := hs
  serveRequests (s := State.requestNormal z _) (hset.retryIf _ _)

theorem requestAll (hs : s.AttentionLaw) : s.requestAll.AttentionLaw :=
  foldl (f := fun s z => s.requestNormal z) (fun _ _ ht => ht) _ hs

theorem applyThermal (a : Assessor) (hs : s.AttentionLaw) : (s.applyThermal a).AttentionLaw := by
  unfold State.applyThermal
  split
  · exact hs
  · exact serveRequests (requestAll hs)

theorem unplace (d : SledNo) (hs : s.AttentionLaw) : (s.unplace d).AttentionLaw := by
  unfold State.unplace
  split <;> exact hs

theorem placeNew (d : SledNo) (p : Placement) (hs : s.AttentionLaw) : (s.placeNew d p).AttentionLaw :=
  reviewChain d hs

theorem placeAgain (d : SledNo) (old new : Placement) (hs : s.AttentionLaw) :
    (s.placeAgain d old new).AttentionLaw := by
  unfold State.placeAgain
  dsimp only
  split
  · exact hs
  · exact reviewChain d hs

theorem takeItem (item : Option ItemName) (hs : s.AttentionLaw) : (s.takeItem item).AttentionLaw := by
  cases item with
  | none => exact hs
  | some i => exact s.updAttention_attentionLaw _

theorem restart (s : State) : s.restart.AttentionLaw := serveRequests (State.updAttention_attentionLaw _ _)

end State.AttentionLaw

/-! ### The judgements -/

theorem judgeSetZone_keepsAttention (z : Byte) (cb ob kb : Half) (r d : Byte) :
    KeepsAttention (judgeSetZone z cb ob kb r d) := fun s hs => by
  unfold judgeSetZone
  split
  · trivial
  · exact Verdict.satisfies_ofChecks _ fun c => Verdict.satisfies_verdictOf _ _ (hs.applyZone _ c)

theorem judgeSetThermal_keepsAttention (w1 w0 h1 h0 c1 c0 dw dh : Byte) :
    KeepsAttention (judgeSetThermal w1 w0 h1 h0 c1 c0 dw dh) := fun _ hs =>
  Verdict.satisfies_ofChecks _ fun a => Verdict.satisfies_verdictOf _ _ (hs.applyThermal a.1)

theorem judgeSetStation_keepsAttention (st i : Byte) : KeepsAttention (judgeSetStation st i) := fun s hs => by
  unfold judgeSetStation
  split
  · trivial
  · exact Verdict.satisfies_ofChecks _ fun _ => Verdict.satisfies_verdictOf _ _ hs

theorem judgeSetService_keepsAttention (zs : Vector Byte 16) : KeepsAttention (judgeSetService zs) := fun s hs => by
  unfold judgeSetService
  split
  · trivial
  · exact hs

theorem judgePlace_keepsAttention (d : SledNo) (z : ZoneNo) (channels : Byte) (up : Option SledNo) :
    KeepsAttention (judgePlace d z channels up) := fun s hs => by
  refine Verdict.satisfies_ofChecks _ fun a => Verdict.satisfies_verdictOf _ _ (State.AttentionLaw.serveRequests ?_)
  split
  · exact hs.placeNew d _
  · exact hs.placeAgain d _ _

theorem judgePlaceSled_keepsAttention (d z c u : Byte) : KeepsAttention (judgePlaceSled d z c u) := fun s hs => by
  unfold judgePlaceSled
  split
  · exact Verdict.satisfies_ofChecks _ fun _ => hs.unplace _
  · split
    · exact judgePlace_keepsAttention _ _ _ _ s hs
    · trivial
  · trivial

theorem judgeInstall_keepsAttention (t d m : Byte) (idle peak floor ceiling : Half) (w k : Byte) :
    KeepsAttention (judgeInstall t d m idle peak floor ceiling w k) := fun s hs => by
  unfold judgeInstall
  split
  · exact Verdict.satisfies_ofChecks _ fun i => Verdict.satisfies_verdictOf _ _ (hs.applyInstall i)
  · trivial

theorem judgeAmend_keepsAttention (h n : Byte) (floor ceiling : Half) (w k : Byte) :
    KeepsAttention (judgeAmend h n floor ceiling w k) := fun s hs => by
  unfold judgeAmend
  split
  · trivial
  split
  · trivial
  split
  · trivial
  · refine Verdict.satisfies_ofChecks _ fun a => ?_
    dsimp only
    split
    · exact hs
    · exact Verdict.satisfies_verdictOf _ _ (hs.applyAmend _ _ _ _)

theorem judgeAmendTenant_keepsAttention (t m p : Byte) : KeepsAttention (judgeAmendTenant t m p) := fun _ hs =>
  Verdict.satisfies_ofChecks _ fun _ => Verdict.satisfies_verdictOf _ _ (hs.applyTenant t m _)

theorem judgePair_keepsAttention (a b : Byte) : KeepsAttention (judgePair a b) := fun s hs => by
  unfold judgePair
  split
  · refine Verdict.satisfies_ofChecks _ fun r => ?_
    dsimp only
    split
    · exact hs
    · exact Verdict.satisfies_ofChecks _ fun _ =>
        (((hs.setPartner _ _).setPartner _ _).requestNormalFor r.1.sled).serveRequests
  · trivial

theorem judgeUnpair_keepsAttention (h : Byte) : KeepsAttention (judgeUnpair h) := fun s hs => by
  unfold judgeUnpair
  split
  · trivial
  · refine Verdict.satisfies_ofChecks _ fun r => ?_
    split
    · exact hs
    · exact (((hs.setPartner _ none).setPartner _ none).requestNormalFor r.sled).serveRequests

theorem judgePark_keepsAttention (k n : Byte) : KeepsAttention (judgePark k n) := fun s hs => by
  unfold judgePark
  split
  · trivial
  · exact Verdict.satisfies_ofChecks _ fun _ => (State.parkFold_dispatches _ (s, false)).attentionLaw hs

theorem judgeUnpark_keepsAttention (k n : Byte) : KeepsAttention (judgeUnpark k n) := fun s hs => by
  unfold judgeUnpark
  split
  · trivial
  · exact Verdict.satisfies_ofChecks _ fun _ => ((s.unparkAll_acts _).attentionLaw hs).serveRequests

theorem judgeRetire_keepsAttention (h : Byte) : KeepsAttention (judgeRetire h) := fun s hs => by
  unfold judgeRetire
  split
  · trivial
  · refine Verdict.satisfies_ofChecks _ fun r => ?_
    split
    · exact hs
    · exact (hs.retireLive _ r).serveRequests

theorem judgeLookup_keepsAttention (h : Byte) : KeepsAttention (judgeLookup h) := fun s hs => by
  unfold judgeLookup
  split
  · trivial
  · exact Verdict.satisfies_ofChecks _ fun _ => hs

theorem judgeReadSled_keepsAttention (d : Byte) : KeepsAttention (judgeReadSled d) := fun s hs => by
  unfold judgeReadSled
  split
  · trivial
  · exact hs

theorem judgeReadZone_keepsAttention (z : Byte) : KeepsAttention (judgeReadZone z) := fun s hs => by
  unfold judgeReadZone
  split
  · trivial
  · exact hs

/-- SET_MASKS re-evaluates ATTENTION under the new station masks (R164, R184). -/
theorem judgeSetMasks_keepsAttention (r o c m : Byte) : KeepsAttention (judgeSetMasks r o c m) := fun s _ => by
  unfold judgeSetMasks
  repeat' split
  · exact State.updAttention_attentionLaw _ _
  · trivial
  · trivial

theorem judgeReadFaults_keepsAttention (c : Byte) : KeepsAttention (judgeReadFaults c) := fun s hs => by
  unfold judgeReadFaults
  split
  · trivial
  · next clear _ =>
    cases clear
    · exact hs
    · exact hs

/-- What every command of the management port applies keeps the law. -/
theorem judgeCommand_keepsAttention (c : Instr) : KeepsAttention (judgeCommand c) := by
  cases c with
  | setZone z cb ob kb r d => exact judgeSetZone_keepsAttention z cb ob kb r d
  | setThermal w1 w0 h1 h0 c1 c0 dw dh => exact judgeSetThermal_keepsAttention w1 w0 h1 h0 c1 c0 dw dh
  | setStation st i => exact judgeSetStation_keepsAttention st i
  | setService zs => exact judgeSetService_keepsAttention zs
  | placeSled d z c u => exact judgePlaceSled_keepsAttention d z c u
  | install t d m idle peak floor ceiling w k => exact judgeInstall_keepsAttention t d m idle peak floor ceiling w k
  | amend h n floor ceiling w k => exact judgeAmend_keepsAttention h n floor ceiling w k
  | amendTenant t m p => exact judgeAmendTenant_keepsAttention t m p
  | pair a b => exact judgePair_keepsAttention a b
  | unpair h => exact judgeUnpair_keepsAttention h
  | park k n => exact judgePark_keepsAttention k n
  | unpark k n => exact judgeUnpark_keepsAttention k n
  | retire h => exact judgeRetire_keepsAttention h
  | lookup h => exact judgeLookup_keepsAttention h
  | readSled d => exact judgeReadSled_keepsAttention d
  | readZone z => exact judgeReadZone_keepsAttention z
  | takeAttention => exact fun s hs => hs.takeItem s.attention.first
  | setMasks r o c m => exact judgeSetMasks_keepsAttention r o c m
  | readFaults c => exact judgeReadFaults_keepsAttention c
  | restart => exact fun s _ => State.AttentionLaw.restart s
  | _ => exact fun _ hs => hs

/-- What a frame given by its bytes applies: what the command it spells applies, if it passes the checks (R182). -/
theorem judgeFrame_keepsAttention : KeepsAttention judgeFrame := fun s hs => by
  unfold judgeFrame
  split
  · trivial
  · exact judgeCommand_keepsAttention _ s hs

/-! ## The management port (R172 to R176) -/

namespace State.AttentionLaw

theorem conclude (code : Byte) (p : Option Byte) {v : Verdict} (hs : s.AttentionLaw)
    (hv : v.Satisfies State.AttentionLaw) : (s.conclude code p v).AttentionLaw := by
  cases v with
  | refused d => exact hs
  | done already payload t => exact hv
  | adjusted a payload t => exact hv

theorem takeFrame (code : Byte) (p : Option Byte) (frame : List Byte) {judge : State → Verdict}
    (hj : KeepsAttention judge) (hs : s.AttentionLaw) : (s.takeFrame code p frame judge).AttentionLaw :=
  have hbegun : (s.beginTake frame).AttentionLaw := hs
  hbegun.conclude code p (hj _ hbegun)

theorem takeCommand (code : Byte) (ps : List Byte) {judge : State → Verdict} (hj : KeepsAttention judge)
    (hs : s.AttentionLaw) : (takeCommand code ps judge s).AttentionLaw := by
  refine hs.unlessReset ?_
  split
  · exact hs
  · exact hs.takeFrame _ _ _ hj
  · exact hs.takeFrame _ _ _ hj

theorem takeBytes (bytes : List Byte) (hs : s.AttentionLaw) : (takeBytes bytes s).AttentionLaw := by
  unfold Machine.takeBytes
  split
  · exact hs
  · exact hs.takeFrame _ _ _ judgeFrame_keepsAttention
  · exact hs.takeFrame _ _ _ judgeFrame_keepsAttention

theorem beginWrite (bytes : List Byte) (hs : s.AttentionLaw) : (beginWrite bytes s).AttentionLaw := by
  unfold Machine.beginWrite
  split <;> exact hs

theorem readTransaction (n : Nat) (hs : s.AttentionLaw) : (readTransaction n s).AttentionLaw := by
  unfold Machine.readTransaction
  split <;> exact hs

theorem responseReady (hs : s.AttentionLaw) : (responseReady s).AttentionLaw := by
  unfold Machine.responseReady
  split <;> exact hs

theorem runTransaction {write : List Byte → State → State} (mdi : List Byte) (hs : s.AttentionLaw)
    (hw : ∀ bytes, (write bytes s).AttentionLaw) : (runTransaction write mdi s).AttentionLaw := by
  unfold Machine.runTransaction
  split
  · exact hw _
  · exact hs.readTransaction _
  · exact hs

end State.AttentionLaw

/-! ## The step -/

/-- A management command is run by the port, with the checks and application of its row (R173). -/
theorem exec_of_commandCode {c : Instr} {code : Byte} (h : commandCode c = some code) (s : State) :
    exec c s = .next (takeCommand code (parameters c) (judgeCommand c) s) := by
  cases c <;> cases h <;> rfl

/-- Every event that is no management command comes to a next state, in which the law holds if it held before. -/
theorem completes_attentionLaw_of_event {c : Instr} (hcode : commandCode c = none) (hs : s.AttentionLaw) :
    Completes c s State.AttentionLaw := by
  cases c with
  | refusedFrame bytes => exact ⟨_, rfl, hs.unlessReset (hs.takeBytes bytes)⟩
  | responseReady => exact ⟨_, rfl, hs.unlessReset hs.responseReady⟩
  | readTransaction mdi => exact ⟨_, rfl, hs.unlessReset (hs.runTransaction mdi fun bytes => hs.takeBytes bytes)⟩
  | writeWhileBusy mdi => exact ⟨_, rfl, hs.unlessReset (hs.runTransaction mdi fun _ => hs)⟩
  | powerOnReset => exact ⟨_, rfl, .powerOnReset s⟩
  | resetEnd => exact ⟨_, rfl, hs.resetEnd⟩
  | curtailEdge z level => exact ⟨_, rfl, hs.curtailEdge z level⟩
  | persistenceTimerExpiry z => exact ⟨_, rfl, hs.unlessReset (hs.persistenceExpiry z)⟩
  | recomputeCompletion => exact ⟨_, rfl, hs.unlessReset hs.recomputeCompletion⟩
  | refreshEvent st => exact ⟨_, rfl, hs.unlessReset (hs.refreshEvent st)⟩
  | goingSilent d => exact ⟨_, rfl, hs.unlessReset (hs.goingSilent d)⟩
  | loss d => exact ⟨_, rfl, hs.unlessReset (hs.loss d)⟩
  | fallback d => exact ⟨_, rfl, hs.unlessReset (hs.fallback d)⟩
  | transmissionStart st => exact ⟨_, rfl, hs.unlessReset (hs.transmissionStart st)⟩
  | transmissionCompletion st => exact ⟨_, rfl, hs.unlessReset hs⟩
  | discardedFrame d bytes => exact ⟨_, rfl, hs.unlessReset (hs.takeUplink d bytes)⟩
  | join d count => exact ⟨_, rfl, hs.unlessReset (hs.takeJoin d count)⟩
  | report d ts => exact ⟨_, rfl, hs.unlessReset (hs.takeReport d ts)⟩
  | ack d ps => exact ⟨_, rfl, hs.unlessReset (hs.takeAck d ps)⟩
  | warmTimerExpiry d => exact ⟨_, rfl, hs.unlessReset (hs.warmExpiry d)⟩
  | writeTransactionBegin mdi =>
    exact ⟨_, rfl, hs.unlessReset (hs.runTransaction mdi fun bytes => hs.beginWrite bytes)⟩
  | _ => cases hcode

/-- Every command of the queue comes to a next state, in which the law holds if it held before. -/
theorem completes_attentionLaw (c : Instr) (hs : s.AttentionLaw) : Completes c s State.AttentionLaw := by
  cases hcode : commandCode c with
  | some code => exact ⟨_, exec_of_commandCode hcode s, hs.takeCommand _ _ (judgeCommand_keepsAttention c)⟩
  | none => exact completes_attentionLaw_of_event hcode hs

end Sys2Proof.Machine

namespace Sys2Proof.Proofs
open Sys2Proof.Machine

/-- Settles O2: an empty queue leaves the machine as it is, and every command keeps the law. -/
theorem attentionOutputFollowsItems : Obligations.AttentionOutputFollowsItems := by
  intro s t hs hstep
  unfold step at hstep
  split at hstep
  · cases hstep
    exact hs
  · next c rest _ =>
    obtain ⟨u, hu, hlaw⟩ := completes_attentionLaw (s := { s with pending := rest }) c hs
    cases hu.symm.trans hstep
    exact hlaw

end Sys2Proof.Proofs
end

section
/-! PROOFS. The response at the port (R174, R175): its check byte, the second event that delivers it, and the READ
transaction that shifts it out, and from them the statements on both. -/

namespace Sys2Proof

/-- The last byte of a checked frame is the check byte of the bytes before it (R132, R192). -/
theorem withCheck_getLast? (l : List Byte) : (withCheck l).getLast? = some (crc8 (withCheck l).dropLast) := by
  simp [withCheck]

end Sys2Proof

namespace Sys2Proof.Machine

/-! ## The second event (R174) -/

theorem responseReady_delivers {s : State} {r : Response} (hport : s.port.state = .responding)
    (hbuilding : s.port.building = some r) :
    responseReady s =
      { s with
        port := { s.port with state := .idle, response := some r, building := none, responseRead := false }
        readyPin := true } := by
  simp only [responseReady, hport, hbuilding]

/-! ## The READ transaction (R175) -/

/-- A transaction whose first byte is the READ code clocks the bytes that follow, whatever they are (R172). -/
theorem runTransaction_readCode (write : List Byte → State → State) (bytes : List Byte) (s : State) :
    runTransaction write (readCode :: bytes) s = readTransaction bytes.length s := rfl

theorem exec_readTransaction_readCode (bytes : List Byte) {s : State} (hrun : s.resetHeld = false) :
    exec (.readTransaction (readCode :: bytes)) s = .next (readTransaction bytes.length s) :=
  congrArg Host.Outcome.next ((unlessReset_running hrun).trans (runTransaction_readCode ..))

/-- What `n` bytes clocked shift out of some bytes with filler after them. -/
theorem take_append_filler (l : List Byte) (n : Nat) :
    (l ++ List.replicate n filler).take n = l.take n ++ List.replicate (n - l.length) filler := by
  rw [List.take_append, List.take_replicate, min_eq_left (Nat.sub_le ..)]

/-- With no byte clocked nothing is shifted out; the first byte clocked shifts out NOT_READY, the others filler. -/
theorem take_notReady_filler (n : Nat) :
    (notReady :: List.replicate n filler).take n =
      if n = 0 then [] else notReady :: List.replicate (n - 1) filler := by
  cases n with
  | zero => rfl
  | succ k => simp [List.take_replicate]

theorem readTransaction_of_response {s : State} {r : Response} (n : Nat) (hport : s.port.state ≠ .responding)
    (hresponse : s.port.response = some r) :
    readTransaction n s =
      { s with
        port := { s.port with responseRead := s.port.responseRead || decide (r.bytes.length ≤ n) }
        mdo := r.bytes.take n ++ List.replicate (n - r.bytes.length) filler } := by
  have hbytes : s.port.responseBytes = r.bytes := by rw [Port.responseBytes, hresponse]
  unfold readTransaction
  split
  · next hresponding => exact absurd hresponding hport
  all_goals simp only [hbytes, take_append_filler]

theorem readTransaction_responding {s : State} (n : Nat) (hport : s.port.state = .responding) :
    readTransaction n s = { s with mdo := if n = 0 then [] else notReady :: List.replicate (n - 1) filler } := by
  simp only [readTransaction, hport, take_notReady_filler]

end Sys2Proof.Machine

namespace Sys2Proof.Proofs
open Sys2Proof.Machine

/-- Settles O23: a response's bytes carry their check byte, and the second event delivers the response in building. -/
theorem responseReadyDelivers : Obligations.ResponseReadyDelivers := by
  intro s r hrun hport hbuilding
  have hdelivered : unlessReset responseReady s = _ :=
    (unlessReset_running hrun).trans (responseReady_delivers hport hbuilding)
  exact ⟨withCheck_getLast? _, congrArg Host.Outcome.next hdelivered⟩

/-- Settles O24: a READ clocks the bytes after its code, from the response buffer outside RESPONDING and as NOT_READY
while RESPONDING. -/
theorem readTransactionShiftsResponse : Obligations.ReadTransactionShiftsResponse := by
  intro s bytes hrun n
  have hexec := exec_readTransaction_readCode bytes hrun
  exact ⟨fun r hport hresponse =>
      hexec.trans (congrArg Host.Outcome.next (readTransaction_of_response n hport hresponse)),
    fun hport => hexec.trans (congrArg Host.Outcome.next (readTransaction_responding n hport))⟩

end Sys2Proof.Proofs
end
